-- ==== Sys2Proof/Word.lean ====
section
/-! DEFINITION. The two data widths of the core: bytes and 32-bit words (R16, R24). Every value is unsigned. -/

namespace Sys2Proof

/-- A byte: an unsigned 8-bit value (R24). -/
abbrev Byte := BitVec 8

/-- A word of the datapath: an unsigned 32-bit value (R16, R24). -/
abbrev Word := BitVec 32

end Sys2Proof
end

