-- ==== Sys2Proof/Machine/Bytes.lean ====
section
/-! DEFINITION. Bytes of a word, word assembly, byte strings (R25 to R27) and the loops of the spec's pseudocode (R28). -/

namespace Sys2Proof.Machine

/-- `byte_k(w) = w[31-8k : 24-8k]`; byte 0 is the most significant (R25, GK1). -/
def byteK (w : Word) (k : Nat) : Byte := (w >>> (24 - 8 * k)).setWidth 8

/-- `word(b0, b1, b2, b3)`: big-endian assembly (R26). -/
def wordOf (b0 b1 b2 b3 : Byte) : Word :=
  (b0.setWidth 32 <<< 24) ||| (b1.setWidth 32 <<< 16) ||| (b2.setWidth 32 <<< 8) ||| b3.setWidth 32

/-- `rotl8w(w)`: a word rotated left by one byte (R26). -/
def rotl8w (w : Word) : Word := wordOf (byteK w 1) (byteK w 2) (byteK w 3) (byteK w 0)

/-- `rotr32(w, n)`: a word rotated right by n bits (R26). -/
def rotr32 (w : Word) (n : Nat) : Word := w.rotateRight n

/-- The four bytes of a word in frame order, byte 0 first (R63, R64). -/
def bytesOfWord (w : Word) : List Byte := [byteK w 0, byteK w 1, byteK w 2, byteK w 3]

/-- Byte `i` of a byte string. A byte past the end reads as 0; no rule reads one (R66). Log 14. -/
def byteAt (s : List Byte) (i : Nat) : Byte := s[i]?.getD 0

/-- `MemRead(addr, 4)` on a byte string: the big-endian word at offset `addr` (R27, R62). -/
def memRead4 (s : List Byte) (addr : Nat) : Word :=
  wordOf (byteAt s addr) (byteAt s (addr + 1)) (byteAt s (addr + 2)) (byteAt s (addr + 3))

/-- `s[a .. a+n)`: the n bytes from index a (R27). -/
def slice (s : List Byte) (a n : Nat) : List Byte := (s.drop a).take n

/-- `xorbytes(x, y)`: the bytewise exclusive-or of two strings of equal length (R27). -/
def xorbytes (x y : List Byte) : List Byte := List.zipWith (fun a b => a ^^^ b) x y

/-- `for i in 0..n-1: s <- body i s` (R28); no iteration when n = 0. -/
def forUpTo {α : Type} : Nat → (Nat → α → α) → α → α
  | 0, _, s => s
  | n + 1, body, s => body n (forUpTo n body s)

/-- `for i in a..b: s <- body i s` (R28); no iteration when b < a. -/
def forRange {α : Type} (a b : Nat) (body : Nat → α → α) (s : α) : α :=
  forUpTo (b + 1 - a) (fun k => body (a + k)) s

end Sys2Proof.Machine
end

