-- ==== Sys2Proof/Config.lean ====
section
/-! DEFINITION. What the spec leaves to the implementation: the open parameters PAD (R23) and MAX_MSG_LEN (R20), and the
free values. All are opaque constants: nothing in Lean can see a value of theirs, so a claim holds for every value. -/

namespace Sys2Proof

/-- What `PAD.decode` answers: `ok(bytes)` or `err(code)` with an 8-bit code (R23, R230). -/
inductive PadResult where
  | ok (bytes : List Byte)
  | err (code : Byte)
  deriving DecidableEq, Repr, Inhabited

/-- The open parameters of one core, given as an argument (R20, R23): the padding collaborator PAD and MAX_MSG_LEN.
`padEncode bs data` and `padDecode bs padded` take the block size in bytes (R230, 90_conflicts.md C4). -/
structure Params where
  padEncode : Nat → List Byte → List Byte
  padDecode : Nat → List Byte → PadResult
  maxMsgLen : Nat

/-- PAD-MULT (R231): what `PAD.encode` returns is a whole number of blocks. A premise of claims, never assumed. -/
def Params.PadMult (p : Params) : Prop :=
  ∀ (bs : Nat) (x : List Byte), bs ∈ [16, 24, 32] → (p.padEncode bs x).length % bs = 0

/-- PAD-INV (R231): `PAD.decode` undoes `PAD.encode`. A premise of claims, never assumed. -/
def Params.PadInv (p : Params) : Prop :=
  ∀ (bs : Nat) (x : List Byte), bs ∈ [16, 24, 32] → p.padDecode bs (p.padEncode bs x) = .ok x

namespace Config

/-- The attached collaborator's `encode` (R230): total and pure; anything at all otherwise. Log 7. -/
opaque padEncode : Nat → List Byte → List Byte

/-- The attached collaborator's `decode` (R230). Log 7. -/
opaque padDecode : Nat → List Byte → PadResult

/-- How far MAX_MSG_LEN lies above its least value 32. Log 8. -/
opaque maxMsgLenAbove32 : Fin 4294967264

/-- MAX_MSG_LEN: any value with 32 ≤ MAX_MSG_LEN ≤ 2^32 − 1 (R20). Log 8. -/
def maxMsgLen : Nat := 32 + maxMsgLenAbove32.val

/-- The parameters of the core that `exec` runs. -/
def params : Params := { padEncode := padEncode, padDecode := padDecode, maxMsgLen := maxMsgLen }

/-- Free words: word `k` of the `n`-th draw. The datapath registers at the start of a command (R45). Log 1. -/
opaque freeWord : Nat → Nat → Word

/-- Free bytes: byte `k` of the `n`-th draw (R40, R45). Log 1. -/
opaque freeByte : Nat → Nat → Byte

/-- Free counter values: tcnt at the start of a command, in 0..120 (R45). Log 1. -/
opaque freeTcnt : Nat → Fin 121

/-- Free counter values: rp at the start of a command, in 0..29 (R45). Log 1. -/
opaque freeRp : Nat → Fin 30

end Config

end Sys2Proof
end

