-- ==== Sys2Proof/Machine/State.lean ====
section
/-! DEFINITION. The state of the core, as plain data (10_state.md), the reasons a step can stop, and the state after reset. -/

namespace Sys2Proof.Machine

/-- The control state between commands (R31). -/
inductive Control where
  | idle
  | faultedState
  deriving DecidableEq, Repr

/-- The status of a response (R90). -/
inductive Status where
  | ok
  | illegalCommand
  | badBlockSize
  | badKeyLength
  | badIvLength
  | notKeyed
  | noIv
  | badBlockLength
  | paddingError
  | msgTooLong
  | faulted
  deriving DecidableEq, Repr

/-- A round-key array: 15 rows of 8 words (R17, R33, R37). -/
abbrev RoundKeys := Vector (Vector Word 8) 15

/-- The context: one keyed cipher instance (R19, R33). -/
structure Context where
  /-- CTX.keyed: a key schedule is loaded (R34). -/
  keyed   : Bool
  /-- CTX.nb: words of a block (R36). -/
  nb      : BitVec 4
  /-- CTX.nk: words of the key (R36). -/
  nk      : BitVec 4
  /-- CTX.nr: the round count (R36). -/
  nr      : BitVec 4
  /-- CTX.Ke: encryption round keys (R37, R38). -/
  ke      : RoundKeys
  /-- CTX.Kd: decryption round keys (R37, R38). -/
  kd      : RoundKeys
  /-- CTX.iv_valid: an IV is loaded (R33). -/
  ivValid : Bool
  /-- CTX.iv: the IV store (R40). -/
  iv      : Vector Byte 32
  deriving DecidableEq, Repr

/-- The transient datapath registers (R45) and the key schedule's datapath storage (R312). -/
structure Datapath where
  /-- tk[0..7]: key-expansion words. -/
  tk   : Vector Word 8
  /-- tcnt, 0..120: round-key words placed. -/
  tcnt : Nat
  /-- rp, 0..29: index of the next Rcon entry. -/
  rp   : Nat
  /-- t[0..7]: cipher state words. -/
  t    : Vector Word 8
  /-- a[0..7]: next-round state. -/
  a    : Vector Word 8
  /-- v: the CBC chaining value. -/
  v    : Vector Byte 32
  /-- Ke under construction (R312). -/
  ke   : RoundKeys
  /-- Kd under construction (R312). -/
  kd   : RoundKeys
  deriving DecidableEq, Repr

/-- What arrives at the core from the host (R30, R292). -/
inductive Arrival where
  /-- One byte on the command port. -/
  | byte (b : Byte)
  /-- The reset input asserted. -/
  | reset
  deriving DecidableEq, Repr

/-- A response frame: header words R0 and R1, and OUT, the result bytes (R85). -/
structure Response where
  r0  : Word
  r1  : Word
  out : List Byte
  deriving DecidableEq, Repr

/-- The core. `arrivals` holds what has arrived and is not consumed (the partial frame among it, R306), `inp` is IN (R61),
`responses` the frames emitted, oldest first (R72), `freeCount` the model's own index of free values (log 1). -/
structure State where
  ctx       : Context
  /-- FAULTED: the sticky fault (R41). -/
  faulted   : Bool
  dp        : Datapath
  inp       : List Byte
  arrivals  : List Arrival
  responses : List Response
  freeCount : Nat
  deriving DecidableEq, Repr

/-- The control state, a view of FAULTED (R31). -/
def State.control (s : State) : Control := if s.faulted then .faultedState else .idle

/-- Why the machine stops with a fault. Nobody raises one: the core has no trap (R270), every error is a response and the next
frame is taken, and a partial frame makes the core wait (R306). With no constructor, that is part of the type. Safe. -/
inductive Fault where
  deriving DecidableEq, Repr

/-- Why an instruction is refused. -/
inductive Refusal where
  /-- An instruction with no meaning yet, by its mnemonic. Raised by an arm of `exec` only; no arm raises it. Safe. -/
  | notModelled (mnemonic : String)
  deriving DecidableEq, Repr

/-- A step's outcome. -/
abbrev Result := Host.Outcome State Fault Refusal

/-- The context after reset: the flags clear (R47); the rest unspecified and zero here (R48, log 2). -/
def Context.reset : Context :=
  { keyed := false, nb := 0, nk := 0, nr := 0, ke := Vector.replicate 15 (Vector.replicate 8 0),
    kd := Vector.replicate 15 (Vector.replicate 8 0), ivValid := false, iv := Vector.replicate 32 0 }

/-- The datapath after reset: unspecified (R47) and zero here (R48, log 3). -/
def Datapath.reset : Datapath :=
  { tk := Vector.replicate 8 0, tcnt := 0, rp := 0, t := Vector.replicate 8 0, a := Vector.replicate 8 0,
    v := Vector.replicate 32 0, ke := Vector.replicate 15 (Vector.replicate 8 0),
    kd := Vector.replicate 15 (Vector.replicate 8 0) }

/-- The core right after reset (R47, R300): IDLE, no flag set, no frame held, nothing emitted. -/
def State.reset : State :=
  { ctx := Context.reset, faulted := false, dp := Datapath.reset, inp := [], arrivals := [], responses := [],
    freeCount := 0 }

end Sys2Proof.Machine
end

