-- ==== Sys2Proof/Machine/Ops.lean ====
section
/-! DEFINITION. The named operations every command shares: register and round-key access, the free datapath at the start of a
command, the response frame, ending a command with an error (the core's only form of exception, R270) or normally. -/

namespace Sys2Proof.Machine

/-! ## Registers and stores -/

/-- Word `i` of an 8-word register. The index is below 8 in every rule; past it the read is 0 (log 14). -/
def wordReg (r : Vector Word 8) (i : Nat) : Word := r[i]?.getD 0

/-- `r[i] <- w` on an 8-word register (R28). -/
def setWordReg (r : Vector Word 8) (i : Nat) (w : Word) : Vector Word 8 := r.setIfInBounds i w

/-- The first `n` bytes of a 32-byte store: `CTX.iv[0 .. n)`, `v[0 .. n)` (R40, R45). -/
def storeBytes (v : Vector Byte 32) (n : Nat) : List Byte := v.toList.take n

/-- Writes a byte string over the first bytes of a 32-byte store and leaves the rest. -/
def setStoreBytes (v : Vector Byte 32) (s : List Byte) : Vector Byte 32 :=
  Vector.ofFn fun (i : Fin 32) => s[i.val]?.getD v[i]

/-- Entry [r][c] of a round-key array (R37). Rows are below 15 and columns below 8 in every rule; past them the read is 0
(log 14). -/
def roundKey (k : RoundKeys) (r c : Nat) : Word := wordReg (k[r]?.getD (Vector.replicate 8 0)) c

/-- `k[r][c] <- w` on a round-key array (R28). -/
def setRoundKey (k : RoundKeys) (r c : Nat) (w : Word) : RoundKeys :=
  k.setIfInBounds r (setWordReg (k[r]?.getD (Vector.replicate 8 0)) c w)

/-! ## Free values (log 1) -/

/-- A round-key array of free words; `base` keeps the draws of different arrays apart. -/
def freeRoundKeys (n base : Nat) : RoundKeys :=
  Vector.ofFn fun (r : Fin 15) => Vector.ofFn fun (c : Fin 8) => Config.freeWord n (base + 8 * r.val + c.val)

/-- The datapath registers as a command finds them: every one unspecified (R45, U3). -/
def Datapath.free (n : Nat) : Datapath :=
  { tk := Vector.ofFn fun (k : Fin 8) => Config.freeWord n k.val
    tcnt := (Config.freeTcnt n).val
    rp := (Config.freeRp n).val
    t := Vector.ofFn fun (k : Fin 8) => Config.freeWord n (8 + k.val)
    a := Vector.ofFn fun (k : Fin 8) => Config.freeWord n (16 + k.val)
    v := Vector.ofFn fun (k : Fin 32) => Config.freeByte n k.val
    ke := freeRoundKeys n 24
    kd := freeRoundKeys n 144 }

/-- The IV store's bytes that CINIT does not write: unspecified (R40, U4). Log 10. -/
def freeIvStore (n : Nat) : Vector Byte 32 :=
  Vector.ofFn fun (k : Fin 32) => Config.freeByte n (32 + k.val)

/-! ## Response frames -/

/-- The status codes (R90). -/
def Status.code : Status → Byte
  | .ok => 0x00
  | .illegalCommand => 0x01
  | .badBlockSize => 0x02
  | .badKeyLength => 0x03
  | .badIvLength => 0x04
  | .notKeyed => 0x05
  | .noIv => 0x06
  | .badBlockLength => 0x07
  | .paddingError => 0x08
  | .msgTooLong => 0x09
  | .faulted => 0xFF

/-- The status a code stands for; none for a reserved code, 0x0A to 0xFE, which no frame of the core carries (R91, U7). -/
def Status.ofCode (c : Byte) : Option Status :=
  match c.toNat with
  | 0x00 => some .ok
  | 0x01 => some .illegalCommand
  | 0x02 => some .badBlockSize
  | 0x03 => some .badKeyLength
  | 0x04 => some .badIvLength
  | 0x05 => some .notKeyed
  | 0x06 => some .noIv
  | 0x07 => some .badBlockLength
  | 0x08 => some .paddingError
  | 0x09 => some .msgTooLong
  | 0xFF => some .faulted
  | _ => none

/-- A response frame: R0 = STATUS, OPC, DETAIL, 0 from the most significant byte down; R1 = OLEN (R85). -/
def response (st : Status) (opc detail : Byte) (out : List Byte) : Response :=
  { r0 := wordOf st.code opc detail 0, r1 := BitVec.ofNat 32 out.length, out := out }

/-- The bytes of a response frame on the response port: both header words big-endian, then OUT (R64, R85). -/
def Response.bytes (r : Response) : List Byte := bytesOfWord r.r0 ++ bytesOfWord r.r1 ++ r.out

/-- STATUS of a response (R85). -/
def Response.statusCode (r : Response) : Byte := byteK r.r0 0

/-- The OPC echo of a response (R85). -/
def Response.opc (r : Response) : Byte := byteK r.r0 1

/-- DETAIL of a response (R85). -/
def Response.detail (r : Response) : Byte := byteK r.r0 2

/-! ## The end of a command -/

/-- The command ends and its response frame is emitted (R28, R72). Its operand field is gone: there is no current frame any
more (R60), and a key is held nowhere but in its schedule (R176). Log 9. -/
def State.respond (s : State) (st : Status) (opc detail : Byte) (out : List Byte) : State :=
  { s with inp := [], responses := s.responses ++ [response st opc detail out] }

/-- `raise <Status>(info)`: the command ends with an error. OLEN = 0 and the context is as it was before the command (R28,
R272, R273). DETAIL is 0 but for PADDING_ERROR (R85). This is the core's whole exception mechanism: no saved program counter, no
handler, no return (R270). -/
def raise (s : State) (st : Status) (opc : Byte) (detail : Byte := 0) : Result :=
  .next (s.respond st opc detail [])

/-- `respond(OK, bytes)`: the command ends normally (R28). -/
def finish (s : State) (opc : Byte) (out : List Byte) : Result := .next (s.respond .ok opc 0 out)

/-- The first check of every command but STAT: while FAULTED = 1 the answer is FAULTED and nothing else happens (R275 step 1,
R280). -/
def unlessFaulted (s : State) (opc : Byte) (r : Result) : Result := if s.faulted then raise s .faulted opc else r

/-- A frame that is no command: ILLEGAL_COMMAND, the OPC echoed, no state change (R87, R88, R278); FAULTED comes first (R275). -/
def illegalCommand (s : State) (opc : Byte) : Result := unlessFaulted s opc (raise s .illegalCommand opc)

end Sys2Proof.Machine
end

