-- ==== Sys2Proof/Machine/Operands.lean ====
section
/-! DEFINITION. The operands of a command: the sub-fields of IN (R61), the legal sizes (R12, R13) and the round count (R14). -/

namespace Sys2Proof.Machine

/-- KEY = IN[0 .. KLEN) (R61). -/
def keyOperand (inp : List Byte) (klen : Nat) : List Byte := slice inp 0 klen

/-- IV = IN[KLEN .. KLEN + IVLEN) (R61). -/
def ivOperand (inp : List Byte) (klen ivlen : Nat) : List Byte := slice inp klen ivlen

/-- DATA = IN[KLEN + IVLEN .. L) (R61). -/
def dataOperand (inp : List Byte) (klen ivlen dlen : Nat) : List Byte := slice inp (klen + ivlen) dlen

/-- The legal block sizes and key lengths in bytes: 16, 24, 32 (R12, R13). -/
abbrev LegalSize (n : Nat) : Prop := n = 16 ∨ n = 24 ∨ n = 32

/-- The round count of a block size and a key length in bytes (R14). -/
def roundsFor (bs ks : Nat) : Nat :=
  if bs = 16 ∧ ks = 16 then 10 else if bs = 32 ∨ ks = 32 then 14 else 12

/-- TW, the number of round-key words of a schedule (R18). -/
def totalWords (nb nr : Nat) : Nat := (nr + 1) * nb

/-- The block size in bytes of the loaded schedule, `bs = 4·CTX.nb` (R230, R240). -/
def Context.blockBytes (c : Context) : Nat := 4 * c.nb.toNat

/-- `EncryptBlock` and `DecryptBlock` take CTX.nb and CTX.nr as numbers (R190, R210). -/
def Context.blockWords (c : Context) : Nat := c.nb.toNat

/-- The round count of the loaded schedule as a number (R190, R210). -/
def Context.rounds (c : Context) : Nat := c.nr.toNat

end Sys2Proof.Machine
end

