-- ==== Sys2Proof/Machine/Flags.lean ====
section
/-! DEFINITION. The three status flags (R43) and the STAT payload that shows them (R44, R261). -/

namespace Sys2Proof.Machine

/-- A flag as bit `n` of a byte. -/
def flagBit (b : Bool) (n : Nat) : Byte := if b then 1 <<< n else 0

/-- Byte 0 of the STAT payload: KEYED, IV_VALID, FAULTED at bits 0, 1, 2; bits 7:3 are 0 (R44). -/
def State.statFlags (s : State) : Byte := flagBit s.ctx.keyed 0 ||| flagBit s.ctx.ivValid 1 ||| flagBit s.faulted 2

/-- The STAT payload: the flags, then 4·CTX.nb, 4·CTX.nk and CTX.nr, which read 0 while CTX.keyed = 0 (R36, R44, R261). -/
def State.statPayload (s : State) : List Byte :=
  if s.ctx.keyed then
    [s.statFlags, BitVec.ofNat 8 (4 * s.ctx.nb.toNat), BitVec.ofNat 8 (4 * s.ctx.nk.toNat), BitVec.ofNat 8 s.ctx.nr.toNat]
  else [s.statFlags, 0, 0, 0]

/-- A schedule is loaded and no IV: what a successful KINIT does to the flags (R160). -/
def Context.markKeyed (c : Context) : Context := { c with keyed := true, ivValid := false }

/-- A schedule and an IV are loaded: what a successful CINIT does to the flags (R234). -/
def Context.markKeyedWithIv (c : Context) : Context := { c with keyed := true, ivValid := true }

/-- The length fault of CBCD: FAULTED <- 1 (R41, R244). -/
def State.setFaulted (s : State) : State := { s with faulted := true }

end Sys2Proof.Machine
end

