-- ==== Sys2Proof/Machine/BlockEncrypt.lean ====
section
/-! DEFINITION. The sub-block rijndael_block_encrypt: EncryptBlock (R191 to R195) and the command ENCB (R190). -/

namespace Sys2Proof.Machine

open Sys2Proof.Machine.Rom

/-- ShiftRow offsets (s1, s2, s3); s0 is 0 (R191, R211). -/
structure ShiftOffsets where
  s1 : Nat
  s2 : Nat
  s3 : Nat
  deriving DecidableEq, Repr

/-- The encryption offsets of a block of nb words (R191). -/
def encryptOffsets (nb : Nat) : ShiftOffsets := if nb = 8 then ⟨1, 3, 4⟩ else ⟨1, 2, 3⟩

/-- t[i]. -/
def Datapath.getT (d : Datapath) (i : Nat) : Word := wordReg d.t i

/-- `t[i] <- w`. -/
def Datapath.setT (d : Datapath) (i : Nat) (w : Word) : Datapath := { d with t := setWordReg d.t i w }

/-- `a[i] <- w`. -/
def Datapath.setA (d : Datapath) (i : Nat) (w : Word) : Datapath := { d with a := setWordReg d.a i w }

/-- The initial key addition: t[i] <- MemRead(4·i, 4) ⊕ K[0][i] for i in 0..nb-1 (R192, R212). -/
def addInitialKey (nb : Nat) (k : RoundKeys) (block : List Byte) (d : Datapath) : Datapath :=
  forUpTo nb (fun i d => d.setT i (memRead4 block (4 * i) ^^^ roundKey k 0 i)) d

/-- `for i in 0..nb-1: t[i] <- a[i]` (R193). -/
def copyAToT (nb : Nat) (d : Datapath) : Datapath := forUpTo nb (fun i d => d.setT i (wordReg d.a i)) d

/-- New state word i of a middle round of encryption, from the old t (R193). -/
def encryptRoundWord (nb : Nat) (ke : RoundKeys) (r i : Nat) (d : Datapath) : Word :=
  let o := encryptOffsets nb
  T1 (byteK (d.getT i) 0) ^^^ T2 (byteK (d.getT ((i + o.s1) % nb)) 1) ^^^ T3 (byteK (d.getT ((i + o.s2) % nb)) 2) ^^^
    T4 (byteK (d.getT ((i + o.s3) % nb)) 3) ^^^ roundKey ke r i

/-- A middle round of encryption: every new word into a, then a replaces t (R193, R312). -/
def encryptRound (nb : Nat) (ke : RoundKeys) (r : Nat) (d : Datapath) : Datapath :=
  copyAToT nb (forUpTo nb (fun i d => d.setA i (encryptRoundWord nb ke r i d)) d)

/-- Result bytes 4i .. 4i+3 of the final round of encryption (R194). -/
def encryptFinalBytes (nb nr : Nat) (ke : RoundKeys) (d : Datapath) (i : Nat) : List Byte :=
  let o := encryptOffsets nb
  let k := roundKey ke nr i
  [S (byteK (d.getT i) 0) ^^^ byteK k 0, S (byteK (d.getT ((i + o.s1) % nb)) 1) ^^^ byteK k 1,
   S (byteK (d.getT ((i + o.s2) % nb)) 2) ^^^ byteK k 2, S (byteK (d.getT ((i + o.s3) % nb)) 3) ^^^ byteK k 3]

/-- The datapath after the key addition and the middle rounds of EncryptBlock (R192, R193). -/
def encryptRounds (nb nr : Nat) (ke : RoundKeys) (block : List Byte) (d : Datapath) : Datapath :=
  forRange 1 (nr - 1) (fun r d => encryptRound nb ke r d) (addInitialKey nb ke block d)

/-- `EncryptBlock(nb, nr, Ke, B)`: the 4·nb result bytes, and the datapath it leaves (R195). -/
def encryptBlock (nb nr : Nat) (ke : RoundKeys) (block : List Byte) (d : Datapath) : List Byte × Datapath :=
  let d1 := encryptRounds nb nr ke block d
  ((List.range nb).flatMap (encryptFinalBytes nb nr ke d1), d1)

/-- ENCB: encrypt one block (R190). -/
def execEncb (dlen : Nat) (s : State) : Result :=
  unlessFaulted s 0x03 <|
    if ¬ s.ctx.keyed then raise s .notKeyed 0x03
    else if dlen ≠ s.ctx.blockBytes then raise s .badBlockLength 0x03
    else
      let r := encryptBlock s.ctx.blockWords s.ctx.rounds s.ctx.ke (dataOperand s.inp 0 0 dlen) s.dp
      finish { s with dp := r.2 } 0x03 r.1

end Sys2Proof.Machine
end

