-- ==== Sys2Proof/Machine/BlockDecrypt.lean ====
section
/-! DEFINITION. The sub-block rijndael_block_decrypt: DecryptBlock (R211 to R215) and the command DECB (R210). -/

namespace Sys2Proof.Machine

open Sys2Proof.Machine.Rom

/-- The decryption offsets of a block of nb words (R211). -/
def decryptOffsets (nb : Nat) : ShiftOffsets :=
  if nb = 8 then ⟨7, 5, 4⟩ else if nb = 6 then ⟨5, 4, 3⟩ else ⟨3, 2, 1⟩

/-- New state word i of a middle round of decryption, from the old t (R213). -/
def decryptRoundWord (nb : Nat) (kd : RoundKeys) (r i : Nat) (d : Datapath) : Word :=
  let o := decryptOffsets nb
  T5 (byteK (d.getT i) 0) ^^^ T6 (byteK (d.getT ((i + o.s1) % nb)) 1) ^^^ T7 (byteK (d.getT ((i + o.s2) % nb)) 2) ^^^
    T8 (byteK (d.getT ((i + o.s3) % nb)) 3) ^^^ roundKey kd r i

/-- A middle round of decryption: every new word into a, then a replaces t (R213, R312). -/
def decryptRound (nb : Nat) (kd : RoundKeys) (r : Nat) (d : Datapath) : Datapath :=
  copyAToT nb (forUpTo nb (fun i d => d.setA i (decryptRoundWord nb kd r i d)) d)

/-- Result bytes 4i .. 4i+3 of the final round of decryption (R214). -/
def decryptFinalBytes (nb nr : Nat) (kd : RoundKeys) (d : Datapath) (i : Nat) : List Byte :=
  let o := decryptOffsets nb
  let k := roundKey kd nr i
  [SI (byteK (d.getT i) 0) ^^^ byteK k 0, SI (byteK (d.getT ((i + o.s1) % nb)) 1) ^^^ byteK k 1,
   SI (byteK (d.getT ((i + o.s2) % nb)) 2) ^^^ byteK k 2, SI (byteK (d.getT ((i + o.s3) % nb)) 3) ^^^ byteK k 3]

/-- The datapath after the key addition and the middle rounds of DecryptBlock (R212, R213). -/
def decryptRounds (nb nr : Nat) (kd : RoundKeys) (block : List Byte) (d : Datapath) : Datapath :=
  forRange 1 (nr - 1) (fun r d => decryptRound nb kd r d) (addInitialKey nb kd block d)

/-- `DecryptBlock(nb, nr, Kd, B)`: the 4·nb result bytes, and the datapath it leaves (R215). -/
def decryptBlock (nb nr : Nat) (kd : RoundKeys) (block : List Byte) (d : Datapath) : List Byte × Datapath :=
  let d1 := decryptRounds nb nr kd block d
  ((List.range nb).flatMap (decryptFinalBytes nb nr kd d1), d1)

/-- DECB: decrypt one block (R210). -/
def execDecb (dlen : Nat) (s : State) : Result :=
  unlessFaulted s 0x04 <|
    if ¬ s.ctx.keyed then raise s .notKeyed 0x04
    else if dlen ≠ s.ctx.blockBytes then raise s .badBlockLength 0x04
    else
      let r := decryptBlock s.ctx.blockWords s.ctx.rounds s.ctx.kd (dataOperand s.inp 0 0 dlen) s.dp
      finish { s with dp := r.2 } 0x04 r.1

end Sys2Proof.Machine
end

