-- ==== Sys2Proof/Machine/KeySchedule.lean ====
section
/-! DEFINITION. The sub-block rijndael_key_schedule: BuildSchedule (R162 to R171) and the command KINIT (R160). The schedule is
built in the datapath registers and its storage; the context gets it only at success (R312). -/

namespace Sys2Proof.Machine

open Sys2Proof.Machine.Rom

/-- `SubWord(w)`: S on each byte (R166). -/
def subWord (w : Word) : Word := wordOf (S (byteK w 0)) (S (byteK w 1)) (S (byteK w 2)) (S (byteK w 3))

/-- `InvMixColumnWord(w)`: U(k+1) applied to byte_k, and all four XORed (R127, R170). -/
def invMixColumnWord (w : Word) : Word := U1 (byteK w 0) ^^^ U2 (byteK w 1) ^^^ U3 (byteK w 2) ^^^ U4 (byteK w 3)

/-- tk[i]. -/
def Datapath.getTk (d : Datapath) (i : Nat) : Word := wordReg d.tk i

/-- `tk[i] <- w`. -/
def Datapath.setTk (d : Datapath) (i : Nat) (w : Word) : Datapath := { d with tk := setWordReg d.tk i w }

/-- Step 2, the key words: tk[i] <- MemRead(4·i, 4) for i in 0..nk-1 (R163). -/
def loadKeyWords (key : List Byte) (nk : Nat) (d : Datapath) : Datapath :=
  forUpTo nk (fun i d => d.setTk i (memRead4 key (4 * i))) d

/-- `Place(w)`: word number tcnt goes to Ke and, with its round mirrored, to Kd (R164). -/
def place (nb nr : Nat) (w : Word) (d : Datapath) : Datapath :=
  { d with
    ke := setRoundKey d.ke (d.tcnt / nb) (d.tcnt % nb) w
    kd := setRoundKey d.kd (nr - d.tcnt / nb) (d.tcnt % nb) w
    tcnt := d.tcnt + 1 }

/-- `for j in 0..nk-1: if tcnt < TW: Place(tk[j])` (R165, R169): words past TW are discarded. -/
def placeKeyWords (nb nk nr : Nat) (d : Datapath) : Datapath :=
  forUpTo nk (fun j d => if d.tcnt < totalWords nb nr then place nb nr (d.getTk j) d else d) d

/-- The first word of an iteration: tk[0] takes the rotated, substituted last word and the next round constant (R166). -/
def rconStep (nk : Nat) (d : Datapath) : Datapath :=
  let tt := d.getTk (nk - 1)
  { d.setTk 0 (d.getTk 0 ^^^ subWord (rotl8w tt) ^^^ ((RCON d.rp).setWidth 32 <<< 24)) with rp := d.rp + 1 }

/-- `for i in a..b: tk[i] <- tk[i] ⊕ tk[i-1]`, each from the value just updated (R167). -/
def xorChain (a b : Nat) (d : Datapath) : Datapath :=
  forRange a b (fun i d => d.setTk i (d.getTk i ^^^ d.getTk (i - 1))) d

/-- The chain of the 256-bit key: at the midpoint tk[4] takes SubWord(tk[3]) (R168). -/
def xorChain256 (d : Datapath) : Datapath :=
  let d1 := xorChain 1 3 d
  let d2 := d1.setTk 4 (d1.getTk 4 ^^^ subWord (d1.getTk 3))
  xorChain 5 7 d2

/-- One iteration of step 4 up to its placement: R166, then R167, or R168 when nk = 8. -/
def expandKeyWords (nk : Nat) (d : Datapath) : Datapath :=
  let d1 := rconStep nk d
  if nk = 8 then xorChain256 d1 else xorChain 1 (nk - 1) d1

/-- Step 4, `while tcnt < TW` (R169). Every iteration places at least one word, so `fuel` = TW is never used up (log 18). -/
def expandLoop (nb nk nr : Nat) : Nat → Datapath → Datapath
  | 0, d => d
  | fuel + 1, d =>
    if d.tcnt < totalWords nb nr then
      expandLoop nb nk nr fuel (placeKeyWords nb nk nr (expandKeyWords nk d))
    else d

/-- Step 5: InvMixColumnWord on every word of Kd rows 1 to nr-1 (R170). -/
def invMixKd (nb nr : Nat) (d : Datapath) : Datapath :=
  forRange 1 (nr - 1)
    (fun r d => forUpTo nb
      (fun c d => { d with kd := setRoundKey d.kd r c (invMixColumnWord (roundKey d.kd r c)) }) d) d

/-- `BuildSchedule(KEY, BLEN)` on nb, nk, nr (R162 to R171): Ke and Kd are left in the datapath storage. -/
def buildSchedule (key : List Byte) (nb nk nr : Nat) (d : Datapath) : Datapath :=
  let d1 := loadKeyWords key nk d
  let d2 := placeKeyWords nb nk nr { d1 with tcnt := 0 }
  let d3 := expandLoop nb nk nr (totalWords nb nr) { d2 with rp := 0 }
  invMixKd nb nr d3

/-- The datapath after BuildSchedule for a block size and a key length in bytes (R162). -/
def scheduleFor (key : List Byte) (blen klen : Nat) (d : Datapath) : Datapath :=
  buildSchedule key (blen / 4) (klen / 4) (roundsFor blen klen) d

/-- The context takes a finished schedule, whole (R160, R171): the sizes, Ke and Kd. -/
def Context.loadSchedule (c : Context) (blen klen : Nat) (d : Datapath) : Context :=
  { c with
    nb := BitVec.ofNat 4 (blen / 4)
    nk := BitVec.ofNat 4 (klen / 4)
    nr := BitVec.ofNat 4 (roundsFor blen klen)
    ke := d.ke
    kd := d.kd }

/-- KINIT: build and load a key schedule; any IV is dropped (R160). -/
def execKinit (klen blen : Nat) (s : State) : Result :=
  unlessFaulted s 0x01 <|
    if ¬ LegalSize blen then raise s .badBlockSize 0x01
    else if ¬ LegalSize klen then raise s .badKeyLength 0x01
    else
      let d := scheduleFor (keyOperand s.inp klen) blen klen s.dp
      finish { s with ctx := (s.ctx.loadSchedule blen klen d).markKeyed, dp := d } 0x01 []

end Sys2Proof.Machine
end

