-- ==== Sys2Proof/Machine/CbcWrapper.lean ====
section
/-! DEFINITION. The sub-block rijndael_cbc_wrapper: CINIT (R234), CBCE (R240) and CBCD (R244), with the chaining functions
(R232, R233). CBCE and CBCD are written for any parameters PAD and MAX_MSG_LEN; `exec` runs them on `Config.params`. -/

namespace Sys2Proof.Machine

/-- `v[0 .. bs) <- x`. -/
def Datapath.setV (d : Datapath) (x : List Byte) : Datapath := { d with v := setStoreBytes d.v x }

/-- Block j of a message of blocks of bs bytes (R232, R233). -/
def messageBlock (bs : Nat) (m : List Byte) (j : Nat) : List Byte := slice m (j * bs) bs

/-- One turn of CbcEncryptChain: XOR with the chaining value, encrypt, append, carry the ciphertext block (R232). -/
def cbcEncryptTurn (c : Context) (p : List Byte) (j : Nat) (acc : List Byte × Datapath) : List Byte × Datapath :=
  let bs := c.blockBytes
  let x := xorbytes (messageBlock bs p j) (storeBytes acc.2.v bs)
  let r := encryptBlock c.blockWords c.rounds c.ke x acc.2
  (acc.1 ++ r.1, r.2.setV r.1)

/-- `CbcEncryptChain(P)` for P of whole blocks; the chain starts at the stored IV (R232, R238). -/
def cbcEncryptChain (c : Context) (p : List Byte) (d : Datapath) : List Byte × Datapath :=
  forUpTo (p.length / c.blockBytes) (cbcEncryptTurn c p) ([], d.setV (storeBytes c.iv c.blockBytes))

/-- One turn of CbcDecryptChain: decrypt, XOR with the chaining value, append, carry the ciphertext block as received (R233). -/
def cbcDecryptTurn (c : Context) (m : List Byte) (j : Nat) (acc : List Byte × Datapath) : List Byte × Datapath :=
  let bs := c.blockBytes
  let cb := messageBlock bs m j
  let r := decryptBlock c.blockWords c.rounds c.kd cb acc.2
  (acc.1 ++ xorbytes r.1 (storeBytes acc.2.v bs), r.2.setV cb)

/-- `CbcDecryptChain(D)` for D of whole blocks; the chain starts at the stored IV (R233, R238). -/
def cbcDecryptChain (c : Context) (m : List Byte) (d : Datapath) : List Byte × Datapath :=
  forUpTo (m.length / c.blockBytes) (cbcDecryptTurn c m) ([], d.setV (storeBytes c.iv c.blockBytes))

/-- `CTX.iv[0 .. BLEN) <- IV`; the store's other bytes are unspecified (R40, R234, log 10). -/
def Context.loadIv (c : Context) (iv : List Byte) (n : Nat) : Context := { c with iv := setStoreBytes (freeIvStore n) iv }

/-- CINIT: load a key schedule and an IV (R234). -/
def execCinit (klen blen ivlen : Nat) (s : State) : Result :=
  unlessFaulted s 0x02 <|
    if ¬ LegalSize blen then raise s .badBlockSize 0x02
    else if ¬ LegalSize klen then raise s .badKeyLength 0x02
    else if ivlen ≠ blen then raise s .badIvLength 0x02
    else
      let d := scheduleFor (keyOperand s.inp klen) blen klen s.dp
      let c := (s.ctx.loadSchedule blen klen d).loadIv (ivOperand s.inp klen ivlen) s.freeCount
      finish { s with ctx := c.markKeyedWithIv, dp := d } 0x02 []

/-- CBCE on parameters p: CBC-encrypt a whole message (R240). -/
def cbcEncryptMessage (p : Params) (dlen : Nat) (s : State) : Result :=
  unlessFaulted s 0x05 <|
    if ¬ s.ctx.keyed then raise s .notKeyed 0x05
    else if ¬ s.ctx.ivValid then raise s .noIv 0x05
    else if dlen > p.maxMsgLen then raise s .msgTooLong 0x05
    else
      let padded := p.padEncode s.ctx.blockBytes (dataOperand s.inp 0 0 dlen)
      if padded.length > p.maxMsgLen then raise s .msgTooLong 0x05
      else if padded.length % s.ctx.blockBytes ≠ 0 then raise s .badBlockLength 0x05
      else
        let r := cbcEncryptChain s.ctx padded s.dp
        finish { s with dp := r.2 } 0x05 r.1

/-- CBCD on parameters p: CBC-decrypt a whole message (R244). -/
def cbcDecryptMessage (p : Params) (dlen : Nat) (s : State) : Result :=
  unlessFaulted s 0x06 <|
    if ¬ s.ctx.keyed then raise s .notKeyed 0x06
    else if ¬ s.ctx.ivValid then raise s .noIv 0x06
    else if dlen > p.maxMsgLen then raise s .msgTooLong 0x06
    else if dlen % s.ctx.blockBytes ≠ 0 then raise s.setFaulted .faulted 0x06
    else
      let r := cbcDecryptChain s.ctx (dataOperand s.inp 0 0 dlen) s.dp
      let s1 := { s with dp := r.2 }
      match p.padDecode s.ctx.blockBytes r.1 with
      | .err e => raise s1 .paddingError 0x06 e
      | .ok m => if m.length > p.maxMsgLen then raise s1 .msgTooLong 0x06 else finish s1 0x06 m

/-- CBCE (R240). -/
def execCbce (dlen : Nat) (s : State) : Result := cbcEncryptMessage Config.params dlen s

/-- CBCD (R244). -/
def execCbcd (dlen : Nat) (s : State) : Result := cbcDecryptMessage Config.params dlen s

end Sys2Proof.Machine
end

