-- ==== Sys2Proof/Machine/Control.lean ====
section
/-! DEFINITION. The control command STAT (R260 to R262). -/

namespace Sys2Proof.Machine

/-- STAT: the 4-byte payload, with status OK, or FAULTED while FAULTED = 1; the only command with a result under FAULTED
(R260, R262). -/
def execStat (s : State) : Result :=
  .next (s.respond (if s.faulted then .faulted else .ok) 0x07 0 s.statPayload)

end Sys2Proof.Machine
end

