-- ==== Sys2Proof/Syntax.lean ====
section
/-! DEFINITION. The command set (R86): one constructor per row of spec/opcode_table.json. -/

namespace Sys2Proof

/-- A command as its header gives it (R89). The lengths are in bytes, zero-extended to natural numbers (R82); the operand
bytes KEY, IV and DATA follow the header in the frame and are read from IN (R61). -/
inductive Instr where
  /-- KINIT, OPC 0x01: build and load a key schedule (R160). -/
  | kinit (klen blen : Nat)
  /-- CINIT, OPC 0x02: load a key schedule and an IV (R234). -/
  | cinit (klen blen ivlen : Nat)
  /-- ENCB, OPC 0x03: encrypt one block (R190). -/
  | encb (dlen : Nat)
  /-- DECB, OPC 0x04: decrypt one block (R210). -/
  | decb (dlen : Nat)
  /-- CBCE, OPC 0x05: CBC-encrypt a message (R240). -/
  | cbce (dlen : Nat)
  /-- CBCD, OPC 0x06: CBC-decrypt a message (R244). -/
  | cbcd (dlen : Nat)
  /-- STAT, OPC 0x07: read the status (R260). -/
  | stat
  deriving DecidableEq, Repr

/-- KLEN of the command's frame; 0 where the command has none (R86). -/
def Instr.klen : Instr → Nat
  | .kinit k _ => k
  | .cinit k _ _ => k
  | .encb _ => 0
  | .decb _ => 0
  | .cbce _ => 0
  | .cbcd _ => 0
  | .stat => 0

/-- BLEN of the command's frame; 0 where the command has none (R86). -/
def Instr.blen : Instr → Nat
  | .kinit _ b => b
  | .cinit _ b _ => b
  | .encb _ => 0
  | .decb _ => 0
  | .cbce _ => 0
  | .cbcd _ => 0
  | .stat => 0

/-- IVLEN of the command's frame; 0 where the command has none (R86). -/
def Instr.ivlen : Instr → Nat
  | .kinit _ _ => 0
  | .cinit _ _ i => i
  | .encb _ => 0
  | .decb _ => 0
  | .cbce _ => 0
  | .cbcd _ => 0
  | .stat => 0

/-- DLEN of the command's frame; 0 where the command has none (R86). -/
def Instr.dlen : Instr → Nat
  | .kinit _ _ => 0
  | .cinit _ _ _ => 0
  | .encb d => d
  | .decb d => d
  | .cbce d => d
  | .cbcd d => d
  | .stat => 0

/-- The operand length L = KLEN + IVLEN + DLEN, without wrap-around (R82). -/
def Instr.operandLength (i : Instr) : Nat := i.klen + i.ivlen + i.dlen

end Sys2Proof
end

