-- ==== Sys2Proof/Machine/Dispatch.lean ====
section
/-! DEFINITION. The meaning of every command, one arm a constructor (R86). -/

namespace Sys2Proof.Machine

def exec (i : Instr) (s : State) : Host.Outcome State Fault Refusal :=
  match i with
  | .kinit klen blen => Sys2Proof.Machine.execKinit klen blen s
  | .cinit klen blen ivlen => Sys2Proof.Machine.execCinit klen blen ivlen s
  | .encb dlen => Sys2Proof.Machine.execEncb dlen s
  | .decb dlen => Sys2Proof.Machine.execDecb dlen s
  | .cbce dlen => Sys2Proof.Machine.execCbce dlen s
  | .cbcd dlen => Sys2Proof.Machine.execCbcd dlen s
  | .stat => Sys2Proof.Machine.execStat s

end Sys2Proof.Machine
end

