-- ==== Sys2Proof/WellFormed.lean ====
section
/-! DEFINITION. Well-formed commands: those a header can spell. KLEN, BLEN and IVLEN are 8 bits wide and DLEN 32 (R21, R81).
Nothing else is a check of form: an unacceptable value of a used field is an error of its command (R87). -/

namespace Sys2Proof

/-- The fields of the command fit their header fields (R81). -/
def Instr.wf (i : Instr) : Bool :=
  decide (i.klen < 256) && decide (i.blen < 256) && decide (i.ivlen < 256) && decide (i.dlen < 4294967296)

/-- The command can be written as a frame header (R81). -/
abbrev Instr.WellFormed (i : Instr) : Prop := i.wf = true

end Sys2Proof
end

