-- ==== Sys2Proof/Decode.lean ====
section
/-! DEFINITION. The command frame's header (R80 to R83), the decoder (R86 to R89), total on any bytes and rejecting by name,
and after it the encoder. -/

namespace Sys2Proof

open Sys2Proof.Machine

/-- The header fields of a command frame, each an unsigned number (R81). -/
structure Header where
  opc   : Byte
  klen  : Byte
  blen  : Byte
  ivlen : Byte
  dlen  : Word
  deriving DecidableEq, Repr

/-- The fields of the header words: W0 = OPC, KLEN, BLEN, IVLEN from the most significant byte down; W1 = DLEN (R81). -/
def Header.ofWords (w0 w1 : Word) : Header :=
  { opc := byteK w0 0, klen := byteK w0 1, blen := byteK w0 2, ivlen := byteK w0 3, dlen := w1 }

/-- W0 of a header (R81). -/
def Header.word0 (h : Header) : Word := wordOf h.opc h.klen h.blen h.ivlen

/-- W1 of a header (R81). -/
def Header.word1 (h : Header) : Word := h.dlen

/-- The header in the first 8 bytes of a frame: both words big-endian, W0 first (R64, R80). -/
def Header.ofBytes (b : List Byte) : Header := Header.ofWords (memRead4 b 0) (memRead4 b 4)

/-- The 8 header bytes of a frame (R80). -/
def Header.bytes (h : Header) : List Byte := bytesOfWord h.word0 ++ bytesOfWord h.word1

/-- The operand length L = KLEN + IVLEN + DLEN, computed exactly, whatever the opcode (R82, R83). -/
def Header.operandLength (h : Header) : Nat := h.klen.toNat + h.ivlen.toNat + h.dlen.toNat

/-- A header field that a command may require to be zero (R86). -/
inductive HeaderField where
  | klen
  | blen
  | ivlen
  | dlen
  deriving DecidableEq, Repr

/-- Why a frame is no command: the decode errors behind ILLEGAL_COMMAND (R87, R88), and a header cut short. -/
inductive DecodeError where
  /-- Fewer than 8 header bytes: no frame yet (R306). The step never decodes such bytes. -/
  | truncated
  /-- OPC 0x00 or 0x08 to 0xFF (R88). -/
  | reservedOpcode (opc : Byte)
  /-- A field the command does not use is not zero (R87). -/
  | nonZeroField (field : HeaderField)
  deriving DecidableEq, Repr

/-- What the decoder answers. -/
inductive Decoded where
  | instr (i : Instr)
  | illegal (why : DecodeError)
  deriving DecidableEq, Repr

/-- The first of the listed must-be-zero fields that is not zero (R87). -/
def Header.firstNonZero (h : Header) : List HeaderField → Option HeaderField
  | [] => none
  | f :: fs =>
    let isZero : Bool := match f with
      | .klen => h.klen == 0
      | .blen => h.blen == 0
      | .ivlen => h.ivlen == 0
      | .dlen => h.dlen == 0
    if isZero then h.firstNonZero fs else some f

/-- A command whose must-be-zero fields are checked (R87). -/
def Header.checked (h : Header) (zeros : List HeaderField) (i : Instr) : Decoded :=
  match h.firstNonZero zeros with
  | none => .instr i
  | some f => .illegal (.nonZeroField f)

/-- The decode function: total on any header (R89). -/
def decodeHeader (h : Header) : Decoded :=
  match h.opc.toNat with
  | 0x01 => h.checked [.ivlen, .dlen] (.kinit h.klen.toNat h.blen.toNat)
  | 0x02 => h.checked [.dlen] (.cinit h.klen.toNat h.blen.toNat h.ivlen.toNat)
  | 0x03 => h.checked [.klen, .blen, .ivlen] (.encb h.dlen.toNat)
  | 0x04 => h.checked [.klen, .blen, .ivlen] (.decb h.dlen.toNat)
  | 0x05 => h.checked [.klen, .blen, .ivlen] (.cbce h.dlen.toNat)
  | 0x06 => h.checked [.klen, .blen, .ivlen] (.cbcd h.dlen.toNat)
  | 0x07 => h.checked [.klen, .blen, .ivlen, .dlen] .stat
  | _ => .illegal (.reservedOpcode h.opc)

/-- The decoder on bytes: it reads the first 8 and nothing after them (R83, R89). -/
def decode (bytes : List Byte) : Decoded :=
  if (bytes.take 8).length < 8 then .illegal .truncated else decodeHeader (Header.ofBytes (bytes.take 8))

/-! ## The encoder -/

/-- The opcode of a command (R86). -/
def Instr.opc : Instr → Byte
  | .kinit _ _ => 0x01
  | .cinit _ _ _ => 0x02
  | .encb _ => 0x03
  | .decb _ => 0x04
  | .cbce _ => 0x05
  | .cbcd _ => 0x06
  | .stat => 0x07

/-- The header of a command; the fields it does not use are zero (R86). -/
def Instr.header (i : Instr) : Header :=
  { opc := i.opc, klen := BitVec.ofNat 8 i.klen, blen := BitVec.ofNat 8 i.blen, ivlen := BitVec.ofNat 8 i.ivlen,
    dlen := BitVec.ofNat 32 i.dlen }

/-- The 8 header bytes of a command (R80, R86). -/
def encode (i : Instr) : List Byte := i.header.bytes

/-- A whole command frame: the header, then the operand bytes KEY ++ IV ++ DATA (R80, R82). -/
def encodeFrame (i : Instr) (operands : List Byte) : List Byte := encode i ++ operands

/-! ## The opcode table's numbering -/

/-- The header bytes of a table word: spec/opcode_table.json numbers the 64 header bits with OPC at 63..56 and DLEN at 31..0,
so frame byte k is bits 63-8k..56-8k. Log 13. -/
def tableHeaderBytes (nbits w : Nat) : List Byte :=
  let bits : BitVec 64 := BitVec.ofNat 64 (w % 2 ^ nbits)
  bytesOfWord ((bits >>> 32).setWidth 32) ++ bytesOfWord (bits.setWidth 32)

/-- The whole frame of a table word: its header, then L operand bytes of zero (R83). -/
def tableFrame (nbits w : Nat) : List Byte :=
  let header := tableHeaderBytes nbits w
  header ++ List.replicate (Header.ofBytes header).operandLength 0

/-- The command the decoder reads from an opcode-table word; none where it refuses. -/
def decodeTableWord (nbits w : Nat) : Option Instr :=
  match decode (tableFrame nbits w) with
  | .instr i => some i
  | .illegal _ => none

end Sys2Proof
end

