-- ==== Sys2Proof/Machine/Port.lean ====
section
/-! DEFINITION. The command port: how arrived bytes make a frame (R80 to R84), what reset does (R300, R301), and the start of a
command. -/

namespace Sys2Proof.Machine

/-- What taking bytes from the port finds. -/
inductive Taken where
  /-- The bytes were there; the rest stays. -/
  | got (bytes : List Byte) (rest : List Arrival)
  /-- Reset was asserted before they had all arrived (R301). -/
  | cut (rest : List Arrival)
  /-- They have not all arrived (R306). -/
  | short
  deriving DecidableEq, Repr

/-- Takes `n` bytes from what has arrived. -/
def takeBytes : List Arrival → Nat → Taken
  | l, 0 => .got [] l
  | [], _ + 1 => .short
  | .reset :: rest, _ + 1 => .cut rest
  | .byte b :: rest, n + 1 =>
    match takeBytes rest n with
    | .got bs r => .got (b :: bs) r
    | .cut r => .cut r
    | .short => .short

/-- What the port gives the core next. -/
inductive Received where
  /-- A whole frame: its header, its L operand bytes, and what arrived after it (R83, R84). -/
  | frame (header : Header) (operands : List Byte) (rest : List Arrival)
  /-- Reset, between frames or inside one; the bytes before it are forgotten (R301). -/
  | reset (rest : List Arrival)
  /-- A partial frame, or nothing: the core waits (R306). -/
  | partialFrame
  deriving DecidableEq, Repr

/-- Takes the next frame: 8 header bytes, then as many operand bytes as they say, whatever the opcode (R83, R84). -/
def receive (arrivals : List Arrival) : Received :=
  match takeBytes arrivals 8 with
  | .short => .partialFrame
  | .cut rest => .reset rest
  | .got hb rest =>
    match takeBytes rest (Header.ofBytes hb).operandLength with
    | .short => .partialFrame
    | .cut rest' => .reset rest'
    | .got operands rest' => .frame (Header.ofBytes hb) operands rest'

/-- Bytes of the host on the command port, as arrivals. -/
def arrivalsOf (bytes : List Byte) : List Arrival := bytes.map Arrival.byte

/-- The start of a command: its frame is consumed whole (R84), its operand field is IN (R61), and the datapath registers are
unspecified (R45, log 1). -/
def State.accept (s : State) (operands : List Byte) (rest : List Arrival) : State :=
  { s with inp := operands, arrivals := rest, dp := Datapath.free s.freeCount, freeCount := s.freeCount + 1 }

/-- Reset: every piece of state takes its reset value (R300); the frames that arrive after it are still to come, no response is
emitted, and those already emitted stay with the host (log 6). -/
def State.applyReset (s : State) (rest : List Arrival) : State :=
  { State.reset with arrivals := rest, responses := s.responses, freeCount := s.freeCount }

/-- The host sends bytes: they arrive after everything that has arrived (R71). -/
def State.send (s : State) (bytes : List Byte) : State := { s with arrivals := s.arrivals ++ arrivalsOf bytes }

/-- The host asserts reset (R292). -/
def State.assertReset (s : State) : State := { s with arrivals := s.arrivals ++ [Arrival.reset] }

end Sys2Proof.Machine
end

