-- ==== Sys2Proof/Machine/Step.lean ====
section
/-! DEFINITION. One step: one command frame taken whole and answered, or one reset, or waiting (R31, R68, R301, R306). -/

namespace Sys2Proof.Machine

/-- A frame that has arrived: the command its header decodes to runs; any other header is answered ILLEGAL_COMMAND (R89,
R278). -/
def runFrame (h : Header) (s : State) : Host.Outcome State Fault Refusal :=
  match decodeHeader h with
  | .instr i => exec i s
  | .illegal _ => illegalCommand s h.opc

/-- One step of the core. With a partial frame, or none, the core waits: the state stays as it is (R306, log 4). -/
def step (s : State) : Host.Outcome State Fault Refusal :=
  match receive s.arrivals with
  | .frame h operands rest => runFrame h (s.accept operands rest)
  | .reset rest => .next (s.applyReset rest)
  | .partialFrame => .next s

/-- `s` with the frame of an opcode-table word arriving next on the command port, before anything that has arrived (log 5). -/
def State.withFetchWord (s : State) (nbits w : Nat) : State :=
  { s with arrivals := arrivalsOf (tableFrame nbits w) ++ s.arrivals }

end Sys2Proof.Machine
end

