-- ==== Sys2Proof/Machine/Assembler.lean ====
section
/-! DEFINITION. The assembler notation (R92 to R94): it writes frames and never checks that a key, IV or block size is legal, so
illegal values reach the core (R93). The machine does not use it. -/

namespace Sys2Proof.Machine

/-- One line of assembly (R92, R94). `bs` is none where BS is left out. -/
inductive Asm where
  | kinit (key : List Byte) (bs : Option Nat)
  | cinit (key iv : List Byte) (bs : Option Nat)
  | encb (data : List Byte)
  | decb (data : List Byte)
  | cbce (data : List Byte)
  | cbcd (data : List Byte)
  | stat
  /-- `.frame OPC, KLEN, BLEN, IVLEN, DLEN, BYTES`: a raw frame (R94). -/
  | rawFrame (opc klen blen ivlen dlen : Nat) (bytes : List Byte)
  deriving DecidableEq, Repr

/-- BLEN of a line: 16 where BS is left out (R93). -/
def asmBlockSize (bs : Option Nat) : Nat := bs.getD 16

/-- The frame of a command and its operands, refused if a field cannot count it (R93). -/
def asmFrame (i : Instr) (operands : List Byte) : Option (List Byte) :=
  if i.wf then some (encodeFrame i operands) else none

/-- The frame a line assembles to; none where the assembler refuses the line (R92 to R94). -/
def assemble : Asm → Option (List Byte)
  | .kinit key bs => asmFrame (.kinit key.length (asmBlockSize bs)) key
  | .cinit key iv bs => asmFrame (.cinit key.length (asmBlockSize bs) iv.length) (key ++ iv)
  | .encb data => asmFrame (.encb data.length) data
  | .decb data => asmFrame (.decb data.length) data
  | .cbce data => asmFrame (.cbce data.length) data
  | .cbcd data => asmFrame (.cbcd data.length) data
  | .stat => asmFrame .stat []
  | .rawFrame opc klen blen ivlen dlen bytes =>
    if opc < 256 ∧ klen < 256 ∧ blen < 256 ∧ ivlen < 256 ∧ dlen < 4294967296 ∧ bytes.length = klen + ivlen + dlen then
      some (Header.bytes { opc := BitVec.ofNat 8 opc, klen := BitVec.ofNat 8 klen, blen := BitVec.ofNat 8 blen,
                           ivlen := BitVec.ofNat 8 ivlen, dlen := BitVec.ofNat 32 dlen } ++ bytes)
    else none

/-! ## The text of a line (R92). Log 16 names the conventions of spacing and of digits that R92 does not give. -/

/-- The value of a hexadecimal digit. -/
def hexDigit (c : Char) : Option Nat :=
  let n := c.toNat
  if 48 ≤ n ∧ n ≤ 57 then some (n - 48)
  else if 97 ≤ n ∧ n ≤ 102 then some (n - 87)
  else if 65 ≤ n ∧ n ≤ 70 then some (n - 55)
  else none

/-- The value of a decimal digit. -/
def decDigit (c : Char) : Option Nat :=
  let n := c.toNat
  if 48 ≤ n ∧ n ≤ 57 then some (n - 48) else none

/-- Digits in a base, most significant first, onto the value read so far. -/
def readDigits (base : Nat) (digit : Char → Option Nat) : Nat → List Char → Option Nat
  | acc, [] => some acc
  | acc, c :: cs => match digit c with
    | some d => readDigits base digit (acc * base + d) cs
    | none => none

/-- A decimal number, at least one digit. -/
def readDecimal : List Char → Option Nat
  | [] => none
  | c :: cs => readDigits 10 decDigit 0 (c :: cs)

/-- A number of a raw frame: decimal, or hexadecimal after 0x (R24, R94). -/
def readNumber : List Char → Option Nat
  | '0' :: 'x' :: c :: cs => readDigits 16 hexDigit 0 (c :: cs)
  | cs => readDecimal cs

/-- Pairs of hexadecimal digits, first byte first, up to the closing quote, which ends the operand (R92). -/
def readHexPairs : List Char → Option (List Byte)
  | ['"'] => some []
  | a :: b :: cs => match hexDigit a, hexDigit b, readHexPairs cs with
    | some x, some y, some bs => some (BitVec.ofNat 8 (x * 16 + y) :: bs)
    | _, _, _ => none
  | _ => none

/-- A byte-string operand `x"<hex digits>"` (R92). -/
def readByteString : List Char → Option (List Byte)
  | 'x' :: '"' :: cs => readHexPairs cs
  | _ => none

/-- Cuts a text at its commas. -/
def splitCommas : List Char → List (List Char)
  | [] => [[]]
  | ',' :: cs => [] :: splitCommas cs
  | c :: cs => match splitCommas cs with
    | [] => [[c]]
    | p :: ps => (c :: p) :: ps

/-- A space or a tab. -/
def isBlank (c : Char) : Bool := c == ' ' || c == '\t'

/-- A text without the blanks at its two ends. -/
def trimBlanks (cs : List Char) : List Char := ((cs.dropWhile isBlank).reverse.dropWhile isBlank).reverse

/-- The operands of a line: cut at the commas, each trimmed; none at all where nothing follows the mnemonic. -/
def splitOperands (cs : List Char) : List (List Char) :=
  let t := trimBlanks cs
  if t.isEmpty then [] else (splitCommas t).map trimBlanks

/-- One line of assembly text (R92, R94). -/
def parseChars (cs : List Char) : Option Asm :=
  let line := trimBlanks cs
  let m := line.takeWhile fun c => !isBlank c
  let ops := splitOperands (line.dropWhile fun c => !isBlank c)
  if m = ['k', 'i', 'n', 'i', 't'] then match ops with
    | [k] => (readByteString k).map fun k => .kinit k none
    | [k, b] => match readByteString k, readDecimal b with
      | some k, some b => some (.kinit k (some b))
      | _, _ => none
    | _ => none
  else if m = ['c', 'i', 'n', 'i', 't'] then match ops with
    | [k, v] => match readByteString k, readByteString v with
      | some k, some v => some (.cinit k v none)
      | _, _ => none
    | [k, v, b] => match readByteString k, readByteString v, readDecimal b with
      | some k, some v, some b => some (.cinit k v (some b))
      | _, _, _ => none
    | _ => none
  else if m = ['e', 'n', 'c', 'b'] then match ops with
    | [d] => (readByteString d).map .encb
    | _ => none
  else if m = ['d', 'e', 'c', 'b'] then match ops with
    | [d] => (readByteString d).map .decb
    | _ => none
  else if m = ['c', 'b', 'c', 'e'] then match ops with
    | [d] => (readByteString d).map .cbce
    | _ => none
  else if m = ['c', 'b', 'c', 'd'] then match ops with
    | [d] => (readByteString d).map .cbcd
    | _ => none
  else if m = ['s', 't', 'a', 't'] then match ops with
    | [] => some .stat
    | _ => none
  else if m = ['.', 'f', 'r', 'a', 'm', 'e'] then match ops with
    | [o, k, b, i, d, x] =>
      match readNumber o, readNumber k, readNumber b, readNumber i, readNumber d, readByteString x with
      | some o, some k, some b, some i, some d, some x => some (.rawFrame o k b i d x)
      | _, _, _, _, _, _ => none
    | _ => none
  else none

/-- The frame bytes of a line of text; none where it is no line of the notation or the assembler refuses it. -/
def assembleLine (line : String) : Option (List Byte) := (parseChars line.toList).bind assemble

end Sys2Proof.Machine
end

