-- ==== Sys2Proof/Safety.lean ====
section
/-! DEFINITION. What claims are made of: the invariant of the core, when two cores cannot be told apart, runs and their
observation (R297), the form of a response, and reference definitions from the spec's derived rules (R114, R123, R172, R196). -/

namespace Sys2Proof.Machine

open Sys2Proof.Machine.Rom

/-! ## The invariant (R34, R36, R42, R45) -/

/-- The context holds a schedule that BuildSchedule made from a key of a legal length for a legal block size (R34, R36). -/
def Context.Scheduled (c : Context) : Prop :=
  ∃ (bs ks : Nat) (key : List Byte) (d : Datapath),
    LegalSize bs ∧ LegalSize ks ∧ key.length = ks ∧
    c.nb = BitVec.ofNat 4 (bs / 4) ∧ c.nk = BitVec.ofNat 4 (ks / 4) ∧ c.nr = BitVec.ofNat 4 (roundsFor bs ks) ∧
    c.ke = (scheduleFor key bs ks d).ke ∧ c.kd = (scheduleFor key bs ks d).kd

/-- What holds at every command boundary (R42, with R34, R36, R45, R60). -/
structure State.Inv (s : State) : Prop where
  /-- CTX.keyed = 1 only with a schedule in the context (R34, R36). -/
  keyed_scheduled : s.ctx.keyed = true → s.ctx.Scheduled
  /-- CTX.iv_valid = 1 implies CTX.keyed = 1 (R42). -/
  iv_keyed : s.ctx.ivValid = true → s.ctx.keyed = true
  /-- tcnt stays in 0..120 (R45). -/
  tcnt_le : s.dp.tcnt ≤ 120
  /-- rp stays in 0..29 (R45, R174). -/
  rp_le : s.dp.rp ≤ 29
  /-- Between commands there is no operand field (R60). -/
  no_operands : s.inp = []

/-! ## What can be told apart (R37, R40, R48, R322) -/

/-- Two contexts that agree on everything the spec gives a value: the flags; while keyed the sizes and the round keys in rows
0..nr and columns 0..nb-1 (R36, R37); while an IV is loaded its first 4·nb bytes (R40). -/
structure Context.Agree (c c' : Context) : Prop where
  keyed : c.keyed = c'.keyed
  ivValid : c.ivValid = c'.ivValid
  nb : c.keyed = true → c.nb = c'.nb
  nk : c.keyed = true → c.nk = c'.nk
  nr : c.keyed = true → c.nr = c'.nr
  ke : c.keyed = true → ∀ r k : Nat, r ≤ c.rounds → k < c.blockWords → roundKey c.ke r k = roundKey c'.ke r k
  kd : c.keyed = true → ∀ r k : Nat, r ≤ c.rounds → k < c.blockWords → roundKey c.kd r k = roundKey c'.kd r k
  iv : c.keyed = true → c.ivValid = true → storeBytes c.iv c.blockBytes = storeBytes c'.iv c'.blockBytes

/-- Two states with the same frames to come, the same fault flag and contexts that agree; whatever the datapath registers hold,
whatever the unspecified context values are, and whatever was answered before. -/
structure State.Agree (s s' : State) : Prop where
  arrivals : s.arrivals = s'.arrivals
  faulted : s.faulted = s'.faulted
  ctx : s.ctx.Agree s'.ctx

/-! ## Responses (R85, R91) -/

/-- The form of every response frame the core emits: a status of R90, the reserved byte 0, OLEN the number of result bytes,
DETAIL only with PADDING_ERROR, and result bytes only with OK, or four with a STAT under FAULTED (R85, R91). -/
structure Response.WellFormed (r : Response) : Prop where
  status : ∃ st, Status.ofCode r.statusCode = some st
  reserved : byteK r.r0 3 = 0
  olen : r.r1.toNat = r.out.length
  detail : r.detail ≠ 0 → r.statusCode = Status.code .paddingError
  result : r.out ≠ [] → r.statusCode = Status.code .ok ∨
    (r.statusCode = Status.code .faulted ∧ r.opc = 0x07 ∧ r.out.length = 4)

/-- The responses `t` has emitted beyond those of `s`. -/
def newResponses (s t : State) : List Response := t.responses.drop s.responses.length

/-! ## Runs (R294, R297, R307) -/

/-- The states the core can reach, through any number of resets: the host sends bytes and asserts reset, and the core steps (R292,
R307). -/
inductive Reachable : State → Prop where
  | reset : Reachable State.reset
  | send (s : State) (bytes : List Byte) : Reachable s → Reachable (s.send bytes)
  | assertReset (s : State) : Reachable s → Reachable s.assertReset
  | step (s t : State) : Reachable s → Machine.step s = .next t → Reachable t

/-- A state right after reset: where a run begins (R297). What arrives after the reset may be at the port already, and the responses
of earlier runs stay in the list (log 6, log 21). -/
def State.JustReset (s : State) : Prop := ∃ (before : State) (rest : List Arrival), s = before.applyReset rest

/-- One run, from the state right after its reset to a later state: up to the next reset, which no step of the run takes (R297). The
host may have asserted that reset already. -/
inductive Run (start : State) : State → Prop where
  | start : start.JustReset → Run start start
  | send (t : State) (bytes : List Byte) : Run start t → Run start (t.send bytes)
  | assertReset (t : State) : Run start t → Run start t.assertReset
  | step (t u : State) : Run start t → (∀ rest, receive t.arrivals ≠ .reset rest) → Machine.step t = .next u → Run start u

/-- The observation of a run: the responses since its reset (R297). -/
def observation (start t : State) : List Response := newResponses start t

/-- A run has ended: the frames the host sent up to the next reset are all answered, and no partial frame is pending (R297). What is
left is nothing, or the next reset and what comes after it. -/
def State.RunEnded (t : State) : Prop := t.arrivals = [] ∨ ∃ rest, t.arrivals = Arrival.reset :: rest

/-- The run has ended, and not in the fault state: it is clean (R297). -/
def State.RunEndedClean (t : State) : Prop := t.RunEnded ∧ t.faulted = false

/-- No response of the run has status FAULTED: what a claim that a run is fault-free says (R297). -/
def FaultFree (start t : State) : Prop := ∀ r ∈ observation start t, r.statusCode ≠ Status.code .faulted

/-! ## Frames (R83, R86 to R88) -/

/-- Bytes that are not yet a whole frame: fewer than 8 + L of them (R83, R306). -/
def PartialFrame (bytes : List Byte) : Prop :=
  bytes.length < 8 ∨ bytes.length < 8 + (Header.ofBytes (bytes.take 8)).operandLength

/-- What has arrived begins with a whole frame: 8 header bytes and the L operand bytes they ask for (R83). -/
structure FrameArrived (s : State) (header operands : List Byte) (rest : List Arrival) : Prop where
  header_length : header.length = 8
  operands_length : operands.length = (Header.ofBytes header).operandLength
  arrived : s.arrivals = arrivalsOf (header ++ operands) ++ rest

/-- A header that is no command: a reserved opcode (R88), or a must-be-zero field of R86 that is not zero (R87). -/
def ReservedOrIllFormed (h : Header) : Prop :=
  h.opc = 0 ∨ 8 ≤ h.opc.toNat ∨
  (h.opc = 1 ∧ (h.ivlen ≠ 0 ∨ h.dlen ≠ 0)) ∨
  (h.opc = 2 ∧ h.dlen ≠ 0) ∨
  ((h.opc = 3 ∨ h.opc = 4 ∨ h.opc = 5 ∨ h.opc = 6) ∧ (h.klen ≠ 0 ∨ h.blen ≠ 0 ∨ h.ivlen ≠ 0)) ∨
  (h.opc = 7 ∧ (h.klen ≠ 0 ∨ h.blen ≠ 0 ∨ h.ivlen ≠ 0 ∨ h.dlen ≠ 0))

/-! ## Reference: polynomial multiplication in GF(2^8) (R29, R114) -/

/-- Multiplication by X modulo X^8 + X^4 + X^3 + X + 1 (R114). -/
def xtime (x : Byte) : Byte := (x <<< 1) ^^^ (if x.getLsbD 7 then 0x1B else 0)

/-- The product of the polynomials a and b, b's lowest n coefficients taken, modulo X^8 + X^4 + X^3 + X + 1 (R29, R114). -/
def polyMul (a b : Byte) : Nat → Byte
  | 0 => 0
  | n + 1 => polyMul a b n ^^^ (if b.getLsbD n then Nat.repeat xtime n a else 0)

/-! ## Reference: the expanded key as a sequence (R172) -/

/-- Word i of the sequence from the i words before it (R172). -/
def nextKeyWord (key : List Byte) (nk : Nat) (before : List Word) (i : Nat) : Word :=
  if i < nk then memRead4 key (4 * i)
  else
    let last := before[i - 1]?.getD 0
    let temp :=
      if i % nk = 0 then subWord (rotl8w last) ^^^ ((RCON (i / nk - 1)).setWidth 32 <<< 24)
      else if nk = 8 ∧ i % nk = 4 then subWord last
      else last
    (before[i - nk]?.getD 0) ^^^ temp

/-- w[0 .. n-1] (R172). -/
def keySequence (key : List Byte) (nk : Nat) : Nat → List Word
  | 0 => []
  | n + 1 => keySequence key nk n ++ [nextKeyWord key nk (keySequence key nk n) n]

/-- w[i] (R172). -/
def keyWord (key : List Byte) (nk i : Nat) : Word := nextKeyWord key nk (keySequence key nk i) i

/-! ## Reference: the cipher by SubBytes, ShiftRows, MixColumns and AddRoundKey (R123, R196) -/

/-- The 4 × nb Rijndael state: row, then column (R196). -/
abbrev CipherMatrix := Nat → Nat → Byte

/-- The rotation of row k: s0 = 0, s1, s2, s3 (R191, R211). -/
def ShiftOffsets.row (o : ShiftOffsets) : Nat → Nat
  | 0 => 0
  | 1 => o.s1
  | 2 => o.s2
  | _ => o.s3

/-- Input byte 4c + k goes to row k, column c (R196). -/
def loadMatrix (block : List Byte) : CipherMatrix := fun k c => byteAt block (4 * c + k)

/-- SubBytes (R196). -/
def subBytes (m : CipherMatrix) : CipherMatrix := fun k c => S (m k c)

/-- ShiftRows: row k rotated left by s_k columns (R196). -/
def shiftRows (o : ShiftOffsets) (nb : Nat) (m : CipherMatrix) : CipherMatrix := fun k c => m k ((c + o.row k) % nb)

/-- MixColumns: the Rijndael matrix 02 03 01 01 on each column (R119, R123). -/
def mixColumns (m : CipherMatrix) : CipherMatrix := fun k c =>
  match k with
  | 0 => gmul 2 (m 0 c) ^^^ gmul 3 (m 1 c) ^^^ m 2 c ^^^ m 3 c
  | 1 => m 0 c ^^^ gmul 2 (m 1 c) ^^^ gmul 3 (m 2 c) ^^^ m 3 c
  | 2 => m 0 c ^^^ m 1 c ^^^ gmul 2 (m 2 c) ^^^ gmul 3 (m 3 c)
  | _ => gmul 3 (m 0 c) ^^^ m 1 c ^^^ m 2 c ^^^ gmul 2 (m 3 c)

/-- AddRoundKey with row r of the round keys (R196). -/
def addRoundKey (ke : RoundKeys) (r : Nat) (m : CipherMatrix) : CipherMatrix := fun k c => m k c ^^^ byteK (roundKey ke r c) k

/-- The 4·nb bytes of a matrix, column by column. -/
def matrixBytes (nb : Nat) (m : CipherMatrix) : List Byte :=
  (List.range nb).flatMap fun c => [m 0 c, m 1 c, m 2 c, m 3 c]

/-- The Rijndael cipher on a block: key addition, nr - 1 full rounds, and a last round without MixColumns (R196). -/
def rijndaelCipher (nb nr : Nat) (ke : RoundKeys) (block : List Byte) : List Byte :=
  let o := encryptOffsets nb
  let start := addRoundKey ke 0 (loadMatrix block)
  let mid := forRange 1 (nr - 1) (fun r m => addRoundKey ke r (mixColumns (shiftRows o nb (subBytes m)))) start
  matrixBytes nb (addRoundKey ke nr (shiftRows o nb (subBytes mid)))

end Sys2Proof.Machine
end

