-- ==== Sys2Proof/Certificates/Slice0/Obligations.lean ====
section
/-! DEFINITION. The statements for the provers, from the numbered rules of spec/. -/

open Sys2Proof Sys2Proof.Machine Sys2Proof.Machine.Rom

/-! ## Reset and the command port -/

/-- R47, R300: after reset the core is IDLE, no flag is set, no frame is held and nothing has been emitted. (The values of the
unspecified fields are the model's, log 2 and log 3; they are not stated.) -/
def Obligations.ResetLeavesFlagsClearAndIdle : Prop :=
  State.reset.faulted = false ∧ State.reset.ctx.keyed = false ∧ State.reset.ctx.ivValid = false ∧
    State.reset.control = .idle ∧ State.reset.arrivals = [] ∧ State.reset.inp = [] ∧ State.reset.responses = []

/-- R301: reset, between frames or inside one, clears the flags; the partial frame gets no response and is forgotten, and what
arrives after the reset is the start of a new frame. -/
def Obligations.ResetDiscardsPartialFrame : Prop :=
  ∀ (s : State) (bytes : List Byte) (rest : List Arrival), PartialFrame bytes →
    s.arrivals = arrivalsOf bytes ++ Arrival.reset :: rest →
    ∃ t, step s = .next t ∧ t.faulted = false ∧ t.ctx.keyed = false ∧ t.ctx.ivValid = false ∧ t.control = .idle ∧
      t.inp = [] ∧ t.arrivals = rest ∧ t.responses = s.responses

/-- R72, R84: the core consumes exactly the 8 + L bytes of a frame, whatever it holds, and emits exactly one response, with the
frame's OPC. With fewer bytes it waits (R306); that waiting is a step to the very same state is the model's reading, log 4. -/
def Obligations.FrameConsumedWholeAndAnsweredOnce : Prop :=
  (∀ (s : State) (header operands : List Byte) (rest : List Arrival), FrameArrived s header operands rest →
    ∃ t r, step s = .next t ∧ t.arrivals = rest ∧ t.responses = s.responses ++ [r] ∧
      r.opc = (Header.ofBytes header).opc) ∧
  (∀ (s : State) (bytes : List Byte), PartialFrame bytes → s.arrivals = arrivalsOf bytes → step s = .next s)

/-- Every state has a next state. For a state in which a whole frame has arrived this is R31 and R321; that a partial frame, or
nothing at the port, leaves the same state as the next one is the model's reading of R306, log 4; that no step ends in a fault or a
refusal is log 17. -/
def Obligations.EveryStepAnswersNextState : Prop := ∀ s : State, ∃ t, step s = .next t

/-- When a frame whose header decodes to a command has arrived, the step is that command's meaning, on the state in which the
frame is consumed and its operand bytes are IN, with the context, the fault flag and the responses as they were (R31, R61, R84), and
the datapath registers unspecified (R45): free values, drawn by the model's own count (log 1). -/
def Obligations.StepRunsDecodedCommand : Prop :=
  ∀ (s : State) (header operands : List Byte) (rest : List Arrival) (i : Instr), FrameArrived s header operands rest →
    decode header = .instr i → step s = exec i (s.accept operands rest) ∧
      (s.accept operands rest).inp = operands ∧ (s.accept operands rest).arrivals = rest ∧
      (s.accept operands rest).ctx = s.ctx ∧ (s.accept operands rest).faulted = s.faulted ∧
      (s.accept operands rest).responses = s.responses ∧ (s.accept operands rest).dp = Datapath.free s.freeCount ∧
      (s.accept operands rest).freeCount = s.freeCount + 1

/-- R87, R88, R278: a reserved opcode or a non-zero must-be-zero field is answered ILLEGAL_COMMAND, with the OPC echoed and no
state change, after the whole frame is consumed. -/
def Obligations.IllegalFrameChangesNothing : Prop :=
  ∀ (s : State) (header operands : List Byte) (rest : List Arrival), FrameArrived s header operands rest →
    s.faulted = false → ReservedOrIllFormed (Header.ofBytes header) →
    ∃ t, step s = .next t ∧ t.ctx = s.ctx ∧ t.faulted = false ∧ t.arrivals = rest ∧
      t.responses = s.responses ++ [response .illegalCommand (Header.ofBytes header).opc 0 []]

/-! ## Encoding -/

/-- R89: the decode function: where each field of the header words lies, and what each header decodes to. -/
def Obligations.DecodeFollowsOpcodeMap : Prop :=
  (∀ w0 w1 : Word,
    (Header.ofWords w0 w1).opc = w0.extractLsb' 24 8 ∧ (Header.ofWords w0 w1).klen = w0.extractLsb' 16 8 ∧
    (Header.ofWords w0 w1).blen = w0.extractLsb' 8 8 ∧ (Header.ofWords w0 w1).ivlen = w0.extractLsb' 0 8 ∧
    (Header.ofWords w0 w1).dlen = w1) ∧
  ∀ h : Header,
    (h.opc = 1 → h.ivlen = 0 → h.dlen = 0 → decodeHeader h = .instr (.kinit h.klen.toNat h.blen.toNat)) ∧
    (h.opc = 2 → h.dlen = 0 → decodeHeader h = .instr (.cinit h.klen.toNat h.blen.toNat h.ivlen.toNat)) ∧
    (h.klen = 0 → h.blen = 0 → h.ivlen = 0 →
      (h.opc = 3 → decodeHeader h = .instr (.encb h.dlen.toNat)) ∧
      (h.opc = 4 → decodeHeader h = .instr (.decb h.dlen.toNat)) ∧
      (h.opc = 5 → decodeHeader h = .instr (.cbce h.dlen.toNat)) ∧
      (h.opc = 6 → decodeHeader h = .instr (.cbcd h.dlen.toNat)) ∧
      (h.opc = 7 → h.dlen = 0 → decodeHeader h = .instr .stat)) ∧
    (ReservedOrIllFormed h → ∃ why, decodeHeader h = .illegal why)

/-- Decoding the frame of any well-formed command, whatever operand bytes follow, gives the command back (R81, R86, R89). -/
def Obligations.DecodeOfEncodeIsIdentity : Prop :=
  ∀ (i : Instr) (operands : List Byte), i.WellFormed → decode (encodeFrame i operands) = .instr i

/-- Encoding what a header decodes to gives the header back: every accepted header has one meaning, and no bit of it is dropped
(R81, R86, R87). -/
def Obligations.EncodeOfDecodeIsIdentity : Prop :=
  ∀ (h : Header) (i : Instr), decodeHeader h = .instr i → i.WellFormed ∧ i.header = h ∧ encode i = h.bytes

/-- The encodings of R95 and R89, written out byte by byte. -/
def Obligations.SampleFramesDecode : Prop :=
  decode [0x01, 0x10, 0x10, 0, 0, 0, 0, 0] = .instr (.kinit 16 16) ∧
  decode [0x01, 0x1f, 0x20, 0, 0, 0, 0, 0] = .instr (.kinit 31 32) ∧
  decode [0x02, 0x20, 0x20, 0x20, 0, 0, 0, 0] = .instr (.cinit 32 32 32) ∧
  decode [0x03, 0, 0, 0, 0, 0, 0, 0x10] = .instr (.encb 16) ∧
  decode [0x04, 0, 0, 0, 0, 0, 0, 0x20] = .instr (.decb 32) ∧
  decode [0x05, 0, 0, 0, 0, 0, 1, 0] = .instr (.cbce 256) ∧
  decode [0x06, 0, 0, 0, 1, 0, 0, 0] = .instr (.cbcd 16777216) ∧
  decode [0x07, 0, 0, 0, 0, 0, 0, 0] = .instr .stat ∧
  decode [0x2a, 0, 0, 0, 0, 0, 0, 2] = .illegal (.reservedOpcode 0x2a)

/-- R64: the header words of both frames are big-endian: where each header byte of a command lies, and the bytes of a
response. -/
def Obligations.HeaderBytesAreBigEndian : Prop :=
  (∀ b0 b1 b2 b3 b4 b5 b6 b7 : Byte,
    Header.ofBytes [b0, b1, b2, b3, b4, b5, b6, b7] =
      { opc := b0, klen := b1, blen := b2, ivlen := b3, dlen := b4 ++ b5 ++ b6 ++ b7 }) ∧
  (∀ h : Header, h.bytes = [h.opc, h.klen, h.blen, h.ivlen, byteK h.dlen 0, byteK h.dlen 1, byteK h.dlen 2, byteK h.dlen 3]) ∧
  (∀ (st : Status) (opc detail : Byte) (out : List Byte),
    (response st opc detail out).bytes =
      [st.code, opc, detail, 0] ++ bytesOfWord (BitVec.ofNat 32 out.length) ++ out)

/-- R61, R82: IN is KEY, then IV, then DATA, each of its length. -/
def Obligations.OperandFieldIsKeyThenIvThenData : Prop :=
  ∀ (i : Instr) (inp : List Byte), inp.length = i.operandLength →
    keyOperand inp i.klen ++ ivOperand inp i.klen i.ivlen ++ dataOperand inp i.klen i.ivlen i.dlen = inp ∧
    (keyOperand inp i.klen).length = i.klen ∧ (ivOperand inp i.klen i.ivlen).length = i.ivlen ∧
    (dataOperand inp i.klen i.ivlen i.dlen).length = i.dlen

/-- What each form of a line assembles to, byte by byte (R92): a BS left out is 16, and a string longer than its field can count is
refused (R93); a raw frame has the field values given, whatever they are (R94). Each but a raw frame decodes to its command. That a
BS above 255, and a raw frame whose fields or bytes do not fit, are refused is log 16. -/
def Obligations.AssemblerWritesWholeFrames : Prop :=
  (∀ (key : List Byte) (bs : Option Nat), assemble (.kinit key bs) =
    if key.length ≤ 255 ∧ bs.getD 16 ≤ 255 then
      some ([0x01, BitVec.ofNat 8 key.length, BitVec.ofNat 8 (bs.getD 16), 0, 0, 0, 0, 0] ++ key)
    else none) ∧
  (∀ (key iv : List Byte) (bs : Option Nat), assemble (.cinit key iv bs) =
    if key.length ≤ 255 ∧ iv.length ≤ 255 ∧ bs.getD 16 ≤ 255 then
      some ([0x02, BitVec.ofNat 8 key.length, BitVec.ofNat 8 (bs.getD 16), BitVec.ofNat 8 iv.length, 0, 0, 0, 0] ++ key ++ iv)
    else none) ∧
  (∀ data : List Byte, data.length ≤ 4294967295 →
    assemble (.encb data) = some ([0x03, 0, 0, 0] ++ bytesOfWord (BitVec.ofNat 32 data.length) ++ data) ∧
    assemble (.decb data) = some ([0x04, 0, 0, 0] ++ bytesOfWord (BitVec.ofNat 32 data.length) ++ data) ∧
    assemble (.cbce data) = some ([0x05, 0, 0, 0] ++ bytesOfWord (BitVec.ofNat 32 data.length) ++ data) ∧
    assemble (.cbcd data) = some ([0x06, 0, 0, 0] ++ bytesOfWord (BitVec.ofNat 32 data.length) ++ data)) ∧
  (∀ data : List Byte, 4294967295 < data.length →
    assemble (.encb data) = none ∧ assemble (.decb data) = none ∧ assemble (.cbce data) = none ∧ assemble (.cbcd data) = none) ∧
  assemble .stat = some [0x07, 0, 0, 0, 0, 0, 0, 0] ∧
  (∀ (opc klen blen ivlen dlen : Nat) (bytes : List Byte), assemble (.rawFrame opc klen blen ivlen dlen bytes) =
    if opc < 256 ∧ klen < 256 ∧ blen < 256 ∧ ivlen < 256 ∧ dlen < 4294967296 ∧ bytes.length = klen + ivlen + dlen then
      some ([BitVec.ofNat 8 opc, BitVec.ofNat 8 klen, BitVec.ofNat 8 blen, BitVec.ofNat 8 ivlen] ++
        bytesOfWord (BitVec.ofNat 32 dlen) ++ bytes)
    else none) ∧
  (∀ (line : Asm) (frame : List Byte), assemble line = some frame →
    (∀ key bs, line = .kinit key bs → decode frame = .instr (.kinit key.length (bs.getD 16))) ∧
    (∀ key iv bs, line = .cinit key iv bs → decode frame = .instr (.cinit key.length (bs.getD 16) iv.length)) ∧
    (∀ data, line = .encb data → decode frame = .instr (.encb data.length)) ∧
    (∀ data, line = .decb data → decode frame = .instr (.decb data.length)) ∧
    (∀ data, line = .cbce data → decode frame = .instr (.cbce data.length)) ∧
    (∀ data, line = .cbcd data → decode frame = .instr (.cbcd data.length)) ∧
    (line = .stat → decode frame = .instr .stat))

/-! ## Responses and status codes -/

/-- R90, R91: the code of each status, and that it stands in R0[31:24] of a response; no status has a reserved code, and a reserved
code is no status; each status is read back from its code. -/
def Obligations.ReservedStatusCodesMeanNothing : Prop :=
  Status.code .ok = 0x00 ∧ Status.code .illegalCommand = 0x01 ∧ Status.code .badBlockSize = 0x02 ∧
  Status.code .badKeyLength = 0x03 ∧ Status.code .badIvLength = 0x04 ∧ Status.code .notKeyed = 0x05 ∧
  Status.code .noIv = 0x06 ∧ Status.code .badBlockLength = 0x07 ∧ Status.code .paddingError = 0x08 ∧
  Status.code .msgTooLong = 0x09 ∧ Status.code .faulted = 0xFF ∧
  (∀ (st : Status) (opc detail : Byte) (out : List Byte), (response st opc detail out).r0.extractLsb' 24 8 = st.code) ∧
  (∀ st : Status, Status.ofCode st.code = some st) ∧
  (∀ c : Byte, 0x0A ≤ c.toNat → c.toNat ≤ 0xFE → Status.ofCode c = none ∧ ∀ st : Status, st.code ≠ c)

/-- R85, R91: every response frame a step emits has the form the spec gives. -/
def Obligations.EveryEmittedResponseIsWellFormed : Prop :=
  ∀ s t : State, step s = .next t → ∀ r ∈ newResponses s t, r.WellFormed

/-! ## KINIT and CINIT -/

/-- KINIT checks FAULTED, the block size and the key length in this order, and each failure leaves the context as it was; else it
loads the schedule of the key whole, sets CTX.keyed, clears CTX.iv_valid and answers OK (R160, R177). That a KINIT leaves the bytes of
CTX.iv, which are unspecified then, is the model's choice (log 10); so is what a failure leaves in IN (log 9) and in the datapath
registers (log 19). -/
def Obligations.KinitLoadsScheduleOrFails : Prop :=
  ∀ (klen blen : Nat) (s : State),
    (s.faulted = true → exec (.kinit klen blen) s = .next (s.respond .faulted 0x01 0 [])) ∧
    (s.faulted = false → ¬ LegalSize blen → exec (.kinit klen blen) s = .next (s.respond .badBlockSize 0x01 0 [])) ∧
    (s.faulted = false → LegalSize blen → ¬ LegalSize klen →
      exec (.kinit klen blen) s = .next (s.respond .badKeyLength 0x01 0 [])) ∧
    (s.faulted = false → LegalSize blen → LegalSize klen →
      ∃ t, exec (.kinit klen blen) s = .next t ∧
        t.ctx.nb = BitVec.ofNat 4 (blen / 4) ∧ t.ctx.nk = BitVec.ofNat 4 (klen / 4) ∧
        t.ctx.nr = BitVec.ofNat 4 (roundsFor blen klen) ∧
        t.ctx.ke = (scheduleFor (keyOperand s.inp klen) blen klen s.dp).ke ∧
        t.ctx.kd = (scheduleFor (keyOperand s.inp klen) blen klen s.dp).kd ∧
        t.ctx.keyed = true ∧ t.ctx.ivValid = false ∧ t.ctx.iv = s.ctx.iv ∧ t.faulted = false ∧
        t.responses = s.responses ++ [response .ok 0x01 0 []])

/-- CINIT checks FAULTED, the block size, the key length and the IV length in this order, and each failure leaves the context as it
was; else it loads the schedule and the IV, sets both flags and answers OK (R234, R235, R236). What a failure leaves in IN and in the
datapath registers is the model's choice (log 9, log 19). -/
def Obligations.CinitLoadsScheduleAndIvOrFails : Prop :=
  ∀ (klen blen ivlen : Nat) (s : State),
    (s.faulted = true → exec (.cinit klen blen ivlen) s = .next (s.respond .faulted 0x02 0 [])) ∧
    (s.faulted = false → ¬ LegalSize blen →
      exec (.cinit klen blen ivlen) s = .next (s.respond .badBlockSize 0x02 0 [])) ∧
    (s.faulted = false → LegalSize blen → ¬ LegalSize klen →
      exec (.cinit klen blen ivlen) s = .next (s.respond .badKeyLength 0x02 0 [])) ∧
    (s.faulted = false → LegalSize blen → LegalSize klen → ivlen ≠ blen →
      exec (.cinit klen blen ivlen) s = .next (s.respond .badIvLength 0x02 0 [])) ∧
    (s.faulted = false → LegalSize blen → LegalSize klen → ivlen = blen → s.inp.length = klen + ivlen →
      ∃ t, exec (.cinit klen blen ivlen) s = .next t ∧
        t.ctx.nb = BitVec.ofNat 4 (blen / 4) ∧ t.ctx.nk = BitVec.ofNat 4 (klen / 4) ∧
        t.ctx.nr = BitVec.ofNat 4 (roundsFor blen klen) ∧
        t.ctx.ke = (scheduleFor (keyOperand s.inp klen) blen klen s.dp).ke ∧
        t.ctx.kd = (scheduleFor (keyOperand s.inp klen) blen klen s.dp).kd ∧
        storeBytes t.ctx.iv blen = ivOperand s.inp klen ivlen ∧
        t.ctx.keyed = true ∧ t.ctx.ivValid = true ∧ t.faulted = false ∧
        t.responses = s.responses ++ [response .ok 0x02 0 []])

/-- R172: Ke, row by row, is the expanded key sequence, for every legal pair of sizes and whatever the datapath held. -/
def Obligations.EncryptionKeysAreExpandedKey : Prop :=
  ∀ (bs ks : Nat) (key : List Byte) (d : Datapath), LegalSize bs → LegalSize ks → key.length = ks →
    ∀ r c : Nat, r ≤ roundsFor bs ks → c < bs / 4 →
      roundKey (scheduleFor key bs ks d).ke r c = keyWord key (ks / 4) (r * (bs / 4) + c)

/-- R173: Kd holds the rows of Ke in reverse, those of the middle rounds through InvMixColumnWord. -/
def Obligations.DecryptionKeysMirrorEncryptionKeys : Prop :=
  ∀ (bs ks : Nat) (key : List Byte) (d : Datapath), LegalSize bs → LegalSize ks → key.length = ks →
    ∀ c : Nat, c < bs / 4 →
      roundKey (scheduleFor key bs ks d).kd 0 c = roundKey (scheduleFor key bs ks d).ke (roundsFor bs ks) c ∧
      roundKey (scheduleFor key bs ks d).kd (roundsFor bs ks) c = roundKey (scheduleFor key bs ks d).ke 0 c ∧
      ∀ r : Nat, 1 ≤ r → r ≤ roundsFor bs ks - 1 →
        roundKey (scheduleFor key bs ks d).kd r c =
          invMixColumnWord (roundKey (scheduleFor key bs ks d).ke (roundsFor bs ks - r) c)

/-- R175: the meaningful round keys depend on the key and the block size alone, not on what the datapath held. -/
def Obligations.ScheduleDependsOnKeyAlone : Prop :=
  ∀ (bs ks : Nat) (key : List Byte) (d d' : Datapath), LegalSize bs → LegalSize ks → key.length = ks →
    ∀ r c : Nat, r ≤ roundsFor bs ks → c < bs / 4 →
      roundKey (scheduleFor key bs ks d).ke r c = roundKey (scheduleFor key bs ks d').ke r c ∧
      roundKey (scheduleFor key bs ks d).kd r c = roundKey (scheduleFor key bs ks d').kd r c

/-- R18, R174: the schedule places TW words and uses ceil((TW - Nk) / Nk) round constants, at most 29, and 29 exactly for a block
of 32 and a key of 16 and for no other pair. -/
def Obligations.ScheduleUsesAtMost29RoundConstants : Prop :=
  ∀ (bs ks : Nat) (key : List Byte) (d : Datapath), LegalSize bs → LegalSize ks →
    (scheduleFor key bs ks d).tcnt = totalWords (bs / 4) (roundsFor bs ks) ∧
    (scheduleFor key bs ks d).rp = (totalWords (bs / 4) (roundsFor bs ks) - ks / 4 + (ks / 4 - 1)) / (ks / 4) ∧
    (scheduleFor key bs ks d).rp ≤ 29 ∧ ((scheduleFor key bs ks d).rp = 29 ↔ bs = 32 ∧ ks = 16)

/-- R14, R15: the round counts of the nine size pairs, each max(Nb, Nk) + 6. -/
def Obligations.RoundCountOfNineSizePairs : Prop :=
  roundsFor 16 16 = 10 ∧ roundsFor 16 24 = 12 ∧ roundsFor 16 32 = 14 ∧ roundsFor 24 16 = 12 ∧ roundsFor 24 24 = 12 ∧
  roundsFor 24 32 = 14 ∧ roundsFor 32 16 = 14 ∧ roundsFor 32 24 = 14 ∧ roundsFor 32 32 = 14 ∧
  ∀ bs ks : Nat, LegalSize bs → LegalSize ks → roundsFor bs ks = max (bs / 4) (ks / 4) + 6

/-! ## ENCB and DECB -/

/-- ENCB checks FAULTED, then that a key is loaded, then the block's length; else it answers OK with the block encrypted, and the
context is unchanged (R190). What a failure leaves in IN and in the datapath registers is the model's choice (log 9, log 19). -/
def Obligations.EncbEncryptsOneBlockOrFails : Prop :=
  ∀ (dlen : Nat) (s : State),
    (s.faulted = true → exec (.encb dlen) s = .next (s.respond .faulted 0x03 0 [])) ∧
    (s.faulted = false → s.ctx.keyed = false → exec (.encb dlen) s = .next (s.respond .notKeyed 0x03 0 [])) ∧
    (s.faulted = false → s.ctx.keyed = true → dlen ≠ 4 * s.ctx.nb.toNat →
      exec (.encb dlen) s = .next (s.respond .badBlockLength 0x03 0 [])) ∧
    (s.faulted = false → s.ctx.keyed = true → dlen = 4 * s.ctx.nb.toNat →
      ∃ t, exec (.encb dlen) s = .next t ∧ t.ctx = s.ctx ∧ t.faulted = false ∧
        t.responses = s.responses ++ [response .ok 0x03 0
          (encryptBlock s.ctx.nb.toNat s.ctx.nr.toNat s.ctx.ke (dataOperand s.inp 0 0 dlen) s.dp).1])

/-- DECB checks FAULTED, then that a key is loaded, then the block's length; else it answers OK with the block decrypted, and the
context is unchanged (R210). What a failure leaves in IN and in the datapath registers is the model's choice (log 9, log 19). -/
def Obligations.DecbDecryptsOneBlockOrFails : Prop :=
  ∀ (dlen : Nat) (s : State),
    (s.faulted = true → exec (.decb dlen) s = .next (s.respond .faulted 0x04 0 [])) ∧
    (s.faulted = false → s.ctx.keyed = false → exec (.decb dlen) s = .next (s.respond .notKeyed 0x04 0 [])) ∧
    (s.faulted = false → s.ctx.keyed = true → dlen ≠ 4 * s.ctx.nb.toNat →
      exec (.decb dlen) s = .next (s.respond .badBlockLength 0x04 0 [])) ∧
    (s.faulted = false → s.ctx.keyed = true → dlen = 4 * s.ctx.nb.toNat →
      ∃ t, exec (.decb dlen) s = .next t ∧ t.ctx = s.ctx ∧ t.faulted = false ∧
        t.responses = s.responses ++ [response .ok 0x04 0
          (decryptBlock s.ctx.nb.toNat s.ctx.nr.toNat s.ctx.kd (dataOperand s.inp 0 0 dlen) s.dp).1])

/-- R195: EncryptBlock returns 4·nb bytes that depend only on the block and on the round keys in rows 0..nr and columns 0..nb-1,
and writes only the registers t and a. -/
def Obligations.EncryptBlockReadsAndWritesOnlyItsOwn : Prop :=
  ∀ (nb nr : Nat) (ke ke' : RoundKeys) (block : List Byte) (d d' : Datapath),
    (∀ r c : Nat, r ≤ nr → c < nb → roundKey ke r c = roundKey ke' r c) →
    (encryptBlock nb nr ke block d).1.length = 4 * nb ∧
    (encryptBlock nb nr ke block d).1 = (encryptBlock nb nr ke' block d').1 ∧
    ∃ (t a : Vector Word 8), (encryptBlock nb nr ke block d).2 = { d with t := t, a := a }

/-- R215: DecryptBlock returns 4·nb bytes that depend only on the block and on the round keys in rows 0..nr and columns 0..nb-1,
and writes only the registers t and a. -/
def Obligations.DecryptBlockReadsAndWritesOnlyItsOwn : Prop :=
  ∀ (nb nr : Nat) (kd kd' : RoundKeys) (block : List Byte) (d d' : Datapath),
    (∀ r c : Nat, r ≤ nr → c < nb → roundKey kd r c = roundKey kd' r c) →
    (decryptBlock nb nr kd block d).1.length = 4 * nb ∧
    (decryptBlock nb nr kd block d).1 = (decryptBlock nb nr kd' block d').1 ∧
    ∃ (t a : Vector Word 8), (decryptBlock nb nr kd block d).2 = { d with t := t, a := a }

/-- R191, R211: the ShiftRow offsets, and each decryption offset as nb minus the encryption offset. -/
def Obligations.ShiftOffsetsOfThreeBlockSizes : Prop :=
  encryptOffsets 4 = ⟨1, 2, 3⟩ ∧ encryptOffsets 6 = ⟨1, 2, 3⟩ ∧ encryptOffsets 8 = ⟨1, 3, 4⟩ ∧
  decryptOffsets 4 = ⟨3, 2, 1⟩ ∧ decryptOffsets 6 = ⟨5, 4, 3⟩ ∧ decryptOffsets 8 = ⟨7, 5, 4⟩ ∧
  ∀ nb ∈ [4, 6, 8], (decryptOffsets nb).s1 = nb - (encryptOffsets nb).s1 ∧
    (decryptOffsets nb).s2 = nb - (encryptOffsets nb).s2 ∧ (decryptOffsets nb).s3 = nb - (encryptOffsets nb).s3

/-- R196: EncryptBlock is the Rijndael cipher by SubBytes, ShiftRows, MixColumns and AddRoundKey. -/
def Obligations.EncryptBlockIsRijndaelCipher : Prop :=
  ∀ (nb nr : Nat) (ke : RoundKeys) (block : List Byte) (d : Datapath), nb ∈ [4, 6, 8] →
    (encryptBlock nb nr ke block d).1 = rijndaelCipher nb nr ke block

/-- R216: with round keys from one BuildSchedule, each of EncryptBlock and DecryptBlock undoes the other, on every block and for
every legal pair of sizes. -/
def Obligations.BlockTransformsAreInverse : Prop :=
  ∀ (bs ks : Nat) (key block : List Byte) (d d1 d2 : Datapath), LegalSize bs → LegalSize ks → key.length = ks →
    block.length = bs →
    (decryptBlock (bs / 4) (roundsFor bs ks) (scheduleFor key bs ks d).kd
      (encryptBlock (bs / 4) (roundsFor bs ks) (scheduleFor key bs ks d).ke block d1).1 d2).1 = block ∧
    (encryptBlock (bs / 4) (roundsFor bs ks) (scheduleFor key bs ks d).ke
      (decryptBlock (bs / 4) (roundsFor bs ks) (scheduleFor key bs ks d).kd block d1).1 d2).1 = block

/-- In every state a run reaches with a key loaded, DECB of what ENCB answered answers the block again (R34, R190,
R210, R216). -/
def Obligations.DecbUndoesEncbInEveryRun : Prop :=
  ∀ (s s1 : State) (block : List Byte), Reachable s → s.ctx.keyed = true → block.length = s.ctx.blockBytes →
    s1.ctx = s.ctx → s1.faulted = false → s1.inp = block →
    ∃ t1 c, exec (.encb block.length) s1 = .next t1 ∧ t1.responses = s1.responses ++ [response .ok 0x03 0 c] ∧
      ∀ s2 : State, s2.ctx = t1.ctx → s2.faulted = false → s2.inp = c →
        ∃ t2, exec (.decb c.length) s2 = .next t2 ∧ t2.responses = s2.responses ++ [response .ok 0x04 0 block]

/-! ## CBCE and CBCD -/

/-- CBCE checks FAULTED, the key, the IV and the length of the message, pads it by PAD.encode, checks the padded length against
MAX_MSG_LEN and the block size, and answers OK with the chained encryption; the context is unchanged (R240). What a failure of the
first four checks leaves in IN and in the datapath registers is the model's choice (log 9, log 19). -/
def Obligations.CbceEncryptsMessageOrFails : Prop :=
  ∀ (dlen : Nat) (s : State),
    (s.faulted = true → exec (.cbce dlen) s = .next (s.respond .faulted 0x05 0 [])) ∧
    (s.faulted = false → s.ctx.keyed = false → exec (.cbce dlen) s = .next (s.respond .notKeyed 0x05 0 [])) ∧
    (s.faulted = false → s.ctx.keyed = true → s.ctx.ivValid = false →
      exec (.cbce dlen) s = .next (s.respond .noIv 0x05 0 [])) ∧
    (s.faulted = false → s.ctx.keyed = true → s.ctx.ivValid = true → Config.maxMsgLen < dlen →
      exec (.cbce dlen) s = .next (s.respond .msgTooLong 0x05 0 [])) ∧
    (s.faulted = false → s.ctx.keyed = true → s.ctx.ivValid = true → dlen ≤ Config.maxMsgLen →
      ∃ t, exec (.cbce dlen) s = .next t ∧ t.ctx = s.ctx ∧ t.faulted = false ∧
        let padded := Config.padEncode (4 * s.ctx.nb.toNat) (dataOperand s.inp 0 0 dlen)
        (Config.maxMsgLen < padded.length → t.responses = s.responses ++ [response .msgTooLong 0x05 0 []]) ∧
        (padded.length ≤ Config.maxMsgLen → padded.length % (4 * s.ctx.nb.toNat) ≠ 0 →
          t.responses = s.responses ++ [response .badBlockLength 0x05 0 []]) ∧
        (padded.length ≤ Config.maxMsgLen → padded.length % (4 * s.ctx.nb.toNat) = 0 →
          t.responses = s.responses ++ [response .ok 0x05 0 (cbcEncryptChain s.ctx padded s.dp).1]))

/-- CBCD checks FAULTED, the key, the IV and the length of the message; a length that is no multiple of the block sets FAULTED; else
it decrypts, and answers what PAD.decode says: its error code, or its bytes if they are not too long (R241, R242, R244). What a failure
of the first four checks leaves in IN and in the datapath registers is the model's choice (log 9, log 19). -/
def Obligations.CbcdDecryptsMessageOrFails : Prop :=
  ∀ (dlen : Nat) (s : State),
    (s.faulted = true → exec (.cbcd dlen) s = .next (s.respond .faulted 0x06 0 [])) ∧
    (s.faulted = false → s.ctx.keyed = false → exec (.cbcd dlen) s = .next (s.respond .notKeyed 0x06 0 [])) ∧
    (s.faulted = false → s.ctx.keyed = true → s.ctx.ivValid = false →
      exec (.cbcd dlen) s = .next (s.respond .noIv 0x06 0 [])) ∧
    (s.faulted = false → s.ctx.keyed = true → s.ctx.ivValid = true → Config.maxMsgLen < dlen →
      exec (.cbcd dlen) s = .next (s.respond .msgTooLong 0x06 0 [])) ∧
    (s.faulted = false → s.ctx.keyed = true → s.ctx.ivValid = true → dlen ≤ Config.maxMsgLen →
      dlen % (4 * s.ctx.nb.toNat) ≠ 0 →
      ∃ t, exec (.cbcd dlen) s = .next t ∧ t.ctx = s.ctx ∧ t.faulted = true ∧
        t.responses = s.responses ++ [response .faulted 0x06 0 []]) ∧
    (s.faulted = false → s.ctx.keyed = true → s.ctx.ivValid = true → dlen ≤ Config.maxMsgLen →
      dlen % (4 * s.ctx.nb.toNat) = 0 →
      ∃ t, exec (.cbcd dlen) s = .next t ∧ t.ctx = s.ctx ∧ t.faulted = false ∧
        let q := (cbcDecryptChain s.ctx (dataOperand s.inp 0 0 dlen) s.dp).1
        (∀ e : Byte, Config.padDecode (4 * s.ctx.nb.toNat) q = .err e →
          t.responses = s.responses ++ [response .paddingError 0x06 e []]) ∧
        (∀ m : List Byte, Config.padDecode (4 * s.ctx.nb.toNat) q = .ok m → Config.maxMsgLen < m.length →
          t.responses = s.responses ++ [response .msgTooLong 0x06 0 []]) ∧
        (∀ m : List Byte, Config.padDecode (4 * s.ctx.nb.toNat) q = .ok m → m.length ≤ Config.maxMsgLen →
          t.responses = s.responses ++ [response .ok 0x06 0 m]))

/-- CBCE and CBCD for every padding collaborator and every MAX_MSG_LEN (R20, R23): `exec` runs the two meanings on the attached
parameters, whatever they are. On any parameters, with a key and an IV loaded and the length in bounds, CBCE completes with OK where
the padded message is whole blocks and not too long, and CBCD completes with OK where the ciphertext is whole blocks and PAD.decode
accepts what it decrypts to with bytes that are not too many (R240, R244). The datapath registers each leaves are the model's choice
(log 19), and so is the empty IN (log 9). -/
def Obligations.CbcCommandsForEveryPadding : Prop :=
  (∀ (dlen : Nat) (s : State), exec (.cbce dlen) s = cbcEncryptMessage Config.params dlen s ∧
    exec (.cbcd dlen) s = cbcDecryptMessage Config.params dlen s) ∧
  ∀ (p : Params) (dlen : Nat) (s : State), s.faulted = false → s.ctx.keyed = true → s.ctx.ivValid = true →
    dlen ≤ p.maxMsgLen →
    (∀ padded : List Byte, padded = p.padEncode s.ctx.blockBytes (dataOperand s.inp 0 0 dlen) →
      padded.length ≤ p.maxMsgLen → padded.length % s.ctx.blockBytes = 0 →
      cbcEncryptMessage p dlen s = .next (State.respond { s with dp := (cbcEncryptChain s.ctx padded s.dp).2 } .ok 0x05 0
        (cbcEncryptChain s.ctx padded s.dp).1)) ∧
    (∀ m : List Byte, dlen % s.ctx.blockBytes = 0 →
      p.padDecode s.ctx.blockBytes (cbcDecryptChain s.ctx (dataOperand s.inp 0 0 dlen) s.dp).1 = .ok m →
      m.length ≤ p.maxMsgLen →
      cbcDecryptMessage p dlen s = .next (State.respond
        { s with dp := (cbcDecryptChain s.ctx (dataOperand s.inp 0 0 dlen) s.dp).2 } .ok 0x06 0 m))

/-- R232, R239: each block of the chained encryption is the encryption of the message block XORed with the ciphertext block
before it, or with the IV for the first; as many bytes come out as go in. -/
def Obligations.CbcEncryptChainLinksBlocks : Prop :=
  ∀ (c : Context) (p : List Byte) (d d' : Datapath) (n : Nat), c.nb.toNat ∈ [4, 6, 8] → p.length = n * c.blockBytes →
    (cbcEncryptChain c p d).1.length = p.length ∧
    ∀ j : Nat, j < n →
      messageBlock c.blockBytes (cbcEncryptChain c p d).1 j =
        (encryptBlock c.blockWords c.rounds c.ke
          (xorbytes (messageBlock c.blockBytes p j)
            (if j = 0 then storeBytes c.iv c.blockBytes
             else messageBlock c.blockBytes (cbcEncryptChain c p d).1 (j - 1))) d').1

/-- R233: each block of the chained decryption is the decryption of the ciphertext block XORed with the ciphertext block before
it as received, or with the IV for the first; as many bytes come out as go in. -/
def Obligations.CbcDecryptChainLinksBlocks : Prop :=
  ∀ (c : Context) (m : List Byte) (d d' : Datapath) (n : Nat), c.nb.toNat ∈ [4, 6, 8] → m.length = n * c.blockBytes →
    (cbcDecryptChain c m d).1.length = m.length ∧
    ∀ j : Nat, j < n →
      messageBlock c.blockBytes (cbcDecryptChain c m d).1 j =
        xorbytes (decryptBlock c.blockWords c.rounds c.kd (messageBlock c.blockBytes m j) d').1
          (if j = 0 then storeBytes c.iv c.blockBytes else messageBlock c.blockBytes m (j - 1))

/-- R246: with a padding scheme that keeps PAD-MULT and PAD-INV, CBCD of what CBCE answered, with the same context, answers the
message. -/
def Obligations.CbcRoundTripGivesMessageBack : Prop :=
  ∀ (p : Params) (s t s' : State) (x c : List Byte), p.PadMult → p.PadInv →
    s.ctx.Scheduled → s.inp = x → x.length ≤ p.maxMsgLen → (p.padEncode s.ctx.blockBytes x).length ≤ p.maxMsgLen →
    cbcEncryptMessage p x.length s = .next t → t.responses = s.responses ++ [response .ok 0x05 0 c] →
    s'.ctx = t.ctx → s'.faulted = false → s'.inp = c →
    ∃ t', cbcDecryptMessage p c.length s' = .next t' ∧ t'.ctx = s'.ctx ∧
      t'.responses = s'.responses ++ [response .ok 0x06 0 x]

/-- R248: changing block j of a ciphertext changes at most blocks j and j + 1 of the chained decryption. -/
def Obligations.CorruptBlockSpoilsOnlyItsNeighbour : Prop :=
  ∀ (c : Context) (m m' : List Byte) (d d' : Datapath) (n j : Nat), c.nb.toNat ∈ [4, 6, 8] →
    m.length = n * c.blockBytes → m'.length = n * c.blockBytes →
    (∀ k : Nat, k < n → k ≠ j → messageBlock c.blockBytes m k = messageBlock c.blockBytes m' k) →
    ∀ k : Nat, k < n → k ≠ j → k ≠ j + 1 →
      messageBlock c.blockBytes (cbcDecryptChain c m d).1 k = messageBlock c.blockBytes (cbcDecryptChain c m' d').1 k

/-- R247, R249: two CBCE commands with the same DATA and the same context answer the same, whatever happened in between. -/
def Obligations.SameMessageSameCiphertext : Prop :=
  ∀ (dlen : Nat) (s s' t t' : State), s.ctx = s'.ctx → s.faulted = s'.faulted →
    s.inp = s'.inp → exec (.cbce dlen) s = .next t → exec (.cbce dlen) s' = .next t' →
    newResponses s t = newResponses s' t'

/-! ## STAT -/

/-- R260, R261, R262: STAT answers the flags and the sizes, 0 for the sizes while no key is loaded, with status OK, or FAULTED under
FAULTED; it changes nothing else. -/
def Obligations.StatReportsFlagsAndSizes : Prop :=
  ∀ s : State, ∃ t b0 b1 b2 b3, exec .stat s = .next t ∧ t.ctx = s.ctx ∧ t.faulted = s.faulted ∧ t.dp = s.dp ∧
    t.responses = s.responses ++ [response (if s.faulted then .faulted else .ok) 0x07 0 [b0, b1, b2, b3]] ∧
    b0.getLsbD 0 = s.ctx.keyed ∧ b0.getLsbD 1 = s.ctx.ivValid ∧ b0.getLsbD 2 = s.faulted ∧
    (∀ k : Nat, 3 ≤ k → b0.getLsbD k = false) ∧
    (s.ctx.keyed = true → b1.toNat = 4 * s.ctx.nb.toNat ∧ b2.toNat = 4 * s.ctx.nk.toNat ∧ b3.toNat = s.ctx.nr.toNat) ∧
    (s.ctx.keyed = false → b1 = 0 ∧ b2 = 0 ∧ b3 = 0)

/-- R261: the payload holds no key, round-key or IV bit: two cores that differ only in those answer STAT alike. -/
def Obligations.StatHidesKeyMaterial : Prop :=
  ∀ (s s' t t' : State), s.faulted = s'.faulted → s.ctx.keyed = s'.ctx.keyed → s.ctx.ivValid = s'.ctx.ivValid →
    (s.ctx.keyed = true → s.ctx.nb = s'.ctx.nb ∧ s.ctx.nk = s'.ctx.nk ∧ s.ctx.nr = s'.ctx.nr) →
    exec .stat s = .next t → exec .stat s' = .next t' → newResponses s t = newResponses s' t'

/-! ## Faults and whole-machine rules -/

/-- R245: FAULTED is set only by a CBCD with a key and an IV loaded, whose length is within MAX_MSG_LEN and no multiple of the
block size. -/
def Obligations.FaultedSetOnlyByCbcdLength : Prop :=
  ∀ s t : State, step s = .next t → s.faulted = false → t.faulted = true →
    ∃ (header operands : List Byte) (rest : List Arrival) (dlen : Nat), FrameArrived s header operands rest ∧
      decode header = .instr (.cbcd dlen) ∧ s.ctx.keyed = true ∧ s.ctx.ivValid = true ∧ dlen ≤ Config.maxMsgLen ∧
      dlen % (4 * s.ctx.nb.toNat) ≠ 0

/-- R281: only reset clears FAULTED, and it clears CTX.keyed and CTX.iv_valid as well. -/
def Obligations.OnlyResetClearsFaulted : Prop :=
  ∀ s t : State, step s = .next t → s.faulted = true → t.faulted = false →
    (∃ (bytes : List Byte) (rest : List Arrival), PartialFrame bytes ∧
      s.arrivals = arrivalsOf bytes ++ Arrival.reset :: rest) ∧ t.ctx.keyed = false ∧ t.ctx.ivValid = false

/-- R280: while FAULTED = 1 every frame is consumed and answered FAULTED, with OLEN = 0 but for a well-formed STAT, and nothing
changes; the command that sets FAULTED answers FAULTED with OLEN = 0 too. -/
def Obligations.FaultedCoreAnswersOnlyFaulted : Prop :=
  (∀ s t : State, step s = .next t → s.faulted = false → t.faulted = true →
    t.responses = s.responses ++ [response .faulted 0x06 0 []]) ∧
  ∀ (s : State) (header operands : List Byte) (rest : List Arrival), FrameArrived s header operands rest →
    s.faulted = true →
    ∃ t, step s = .next t ∧ t.ctx = s.ctx ∧ t.faulted = true ∧ t.arrivals = rest ∧
      (decode header = .instr .stat → t.responses = s.responses ++ [response .faulted 0x07 0 s.statPayload]) ∧
      (decode header ≠ .instr .stat →
        t.responses = s.responses ++ [response .faulted (Header.ofBytes header).opc 0 []])

/-- R272: a frame answered with any status but OK changes no context field and outputs no result byte, has been consumed whole, and
leaves FAULTED as it was. The two exceptions are the length fault of CBCD, which sets FAULTED, and STAT under FAULTED, which outputs
its payload. -/
def Obligations.ErrorsLeaveContextUnchanged : Prop :=
  ∀ (s t : State) (header operands : List Byte) (rest : List Arrival) (r : Response),
    FrameArrived s header operands rest → step s = .next t → t.responses = s.responses ++ [r] →
    r.statusCode ≠ Status.code .ok →
    t.ctx = s.ctx ∧ t.arrivals = rest ∧
      (t.faulted = s.faulted ∨
        (s.faulted = false ∧ r.statusCode = Status.code .faulted ∧ s.ctx.keyed = true ∧ s.ctx.ivValid = true ∧
          ∃ dlen, decode header = .instr (.cbcd dlen) ∧ dlen ≤ Config.maxMsgLen ∧ dlen % (4 * s.ctx.nb.toNat) ≠ 0)) ∧
      (r.out = [] ∨ (decode header = .instr .stat ∧ s.faulted = true))

/-- What every command leaves unchanged: what is still to arrive, and, but for the commands named, the context, the IV and the fault
flag (R38, R39, R40, R41, R43). The rest is the model's: the count of free values is its own field (log 1), no operand field outlives
its command (log 9), a KINIT leaves the bytes of CTX.iv, which R40 leaves unspecified then (log 10), and a command leaves the datapath
registers it does not use, which R45 only calls transient (log 19). -/
def Obligations.CommandsChangeOnlyTheirOwnState : Prop :=
  ∀ (i : Instr) (s t : State), exec i s = .next t →
    t.arrivals = s.arrivals ∧ t.freeCount = s.freeCount ∧ t.inp = [] ∧ (∃ r, t.responses = s.responses ++ [r]) ∧
    ((∀ k b, i ≠ .kinit k b) → (∀ k b v, i ≠ .cinit k b v) →
      t.ctx = s.ctx ∧ t.dp.tk = s.dp.tk ∧ t.dp.tcnt = s.dp.tcnt ∧ t.dp.rp = s.dp.rp ∧ t.dp.ke = s.dp.ke ∧
        t.dp.kd = s.dp.kd) ∧
    ((∀ k b v, i ≠ .cinit k b v) → t.ctx.iv = s.ctx.iv) ∧
    ((∀ d, i ≠ .cbcd d) → t.faulted = s.faulted) ∧
    ((∀ d, i ≠ .cbcd d) → (∀ d, i ≠ .cbce d) → t.dp.v = s.dp.v) ∧
    (((∃ k b, i = .kinit k b) ∨ (∃ k b v, i = .cinit k b v) ∨ i = .stat) → t.dp.t = s.dp.t ∧ t.dp.a = s.dp.a) ∧
    (i = .stat → t.dp = s.dp)

/-- R38: Ke and Kd change only when a KINIT or a CINIT succeeds. -/
def Obligations.RoundKeysChangeOnlyBySuccessfulInit : Prop :=
  ∀ (i : Instr) (s t : State), exec i s = .next t → (t.ctx.ke ≠ s.ctx.ke ∨ t.ctx.kd ≠ s.ctx.kd) →
    ((∃ k b, i = .kinit k b) ∨ (∃ k b v, i = .cinit k b v)) ∧ t.responses = s.responses ++ [response .ok i.opc 0 []]

/-- The invariant of the core holds after reset. (tcnt and rp are in range because the model chose 0 for them, log 3.) -/
def Obligations.CoreInvariantAtReset : Prop := State.reset.Inv

/-- R34, R36, R42, R45: every step keeps the invariant, from every state that has it. (Its clause on IN is the model's reading of
R60, log 9.) -/
def Obligations.EveryStepKeepsCoreInvariant : Prop := ∀ s t : State, s.Inv → step s = .next t → t.Inv

/-- R48, R322: no response depends on an unspecified value or on what the datapath registers hold: two states that agree on
everything specified answer alike at every step, and agree again after it. -/
def Obligations.UnspecifiedStateIsUnobservable : Prop :=
  ∀ s s' : State, s.Agree s' →
    ∃ t t', step s = .next t ∧ step s' = .next t' ∧ newResponses s t = newResponses s' t' ∧ t.Agree t'

/-! ## The ROM tables -/

/-- R111, R117, R118: ALOG, SI and RCON hold what their rules say; LOG inverts ALOG (R112) and S is the affine image of the
inverse (R116). -/
def Obligations.ByteTablesFollowTheirRules : Prop :=
  ALOG 0 = 1 ∧ ALOG 255 = 1 ∧
  (∀ i : Byte, i ≠ 0 →
    let q : BitVec 9 := (((ALOG (i - 1)).setWidth 9) <<< 1) ^^^ ((ALOG (i - 1)).setWidth 9)
    (ALOG i).setWidth 9 = if q.getLsbD 8 then q ^^^ 0x11B else q) ∧
  ALOG 1 = 0x03 ∧ ALOG 2 = 0x05 ∧ ALOG 3 = 0x0F ∧
  (∀ i : Byte, i ≠ 255 → LOG (ALOG i) = i) ∧ LOG 0 = 0 ∧ LOG 1 = 0 ∧ LOG 3 = 1 ∧
  (∀ i : Byte, S i = aff (ginv i)) ∧ (∀ i : Byte, SI (S i) = i) ∧ (∀ j : Byte, S (SI j) = j) ∧
  SI 0x63 = 0x00 ∧ SI 0xED = 0x53 ∧
  RCON 0 = 1 ∧ (∀ t ∈ List.range 29, RCON (t + 1) = gmul 2 (RCON t)) ∧
  (List.range 30).map RCON = [0x01, 0x02, 0x04, 0x08, 0x10, 0x20, 0x40, 0x80, 0x1B, 0x36, 0x6C, 0xD8, 0xAB, 0x4D, 0x9A, 0x2F,
    0x5E, 0xBC, 0x63, 0xC6, 0x97, 0x35, 0x6A, 0xD4, 0xB3, 0x7D, 0xFA, 0xEF, 0xC5, 0x91]

/-- R121, R122, R124, R125, R126: the word tables hold what their rules say, and their lanes are byte rotations. -/
def Obligations.WordTablesFollowTheirRules : Prop :=
  ∀ i : Byte,
    T1 i = mul4 (S i) (G 0) ∧ T2 i = mul4 (S i) (G 1) ∧ T3 i = mul4 (S i) (G 2) ∧ T4 i = mul4 (S i) (G 3) ∧
    T5 i = mul4 (SI i) (IG 0) ∧ T6 i = mul4 (SI i) (IG 1) ∧ T7 i = mul4 (SI i) (IG 2) ∧ T8 i = mul4 (SI i) (IG 3) ∧
    U1 i = mul4 i (IG 0) ∧ U2 i = mul4 i (IG 1) ∧ U3 i = mul4 i (IG 2) ∧ U4 i = mul4 i (IG 3) ∧
    T2 i = rotr32 (T1 i) 8 ∧ T3 i = rotr32 (T1 i) 16 ∧ T4 i = rotr32 (T1 i) 24 ∧
    T6 i = rotr32 (T5 i) 8 ∧ T7 i = rotr32 (T5 i) 16 ∧ T8 i = rotr32 (T5 i) 24 ∧
    U2 i = rotr32 (U1 i) 8 ∧ U3 i = rotr32 (U1 i) 16 ∧ U4 i = rotr32 (U1 i) 24

/-- R114: gmul is the product of polynomials modulo X^8 + X^4 + X^3 + X + 1; it is commutative and associative and distributes
over exclusive-or; doubling is a shift with reduction. -/
def Obligations.GmulIsPolynomialProduct : Prop :=
  (∀ a b : Byte, gmul a b = polyMul a b 8) ∧ (∀ a b : Byte, gmul a b = gmul b a) ∧
  (∀ a b c : Byte, gmul (gmul a b) c = gmul a (gmul b c)) ∧
  (∀ a b c : Byte, gmul a (b ^^^ c) = gmul a b ^^^ gmul a c) ∧ (∀ x : Byte, gmul 2 x = xtime x)

/-- R115: ginv by the log tables is the inverse of gmul, and 0 maps to 0. -/
def Obligations.GinvInvertsGmul : Prop :=
  ginv 0 = 0 ∧ ginv 1 = 1 ∧ ginv 0x53 = 0xCA ∧
  ∀ x : Byte, x ≠ 0 → ginv x = ALOG (BitVec.ofNat 8 ((255 - (LOG x).toNat) % 255)) ∧ gmul x (ginv x) = 1

/-- R123: the forward tables compute the Rijndael MixColumn of the substituted column. -/
def Obligations.ForwardTablesComputeMixColumn : Prop :=
  ∀ a0 a1 a2 a3 : Byte,
    T1 a0 ^^^ T2 a1 ^^^ T3 a2 ^^^ T4 a3 =
      wordOf (gmul 2 (S a0) ^^^ gmul 3 (S a1) ^^^ S a2 ^^^ S a3)
        (S a0 ^^^ gmul 2 (S a1) ^^^ gmul 3 (S a2) ^^^ S a3)
        (S a0 ^^^ S a1 ^^^ gmul 2 (S a2) ^^^ gmul 3 (S a3))
        (gmul 3 (S a0) ^^^ S a1 ^^^ S a2 ^^^ gmul 2 (S a3))

/-- R127: InvMixColumnWord is the Rijndael InvMixColumn; T5 to T8 apply it to the inverse-substituted column; it is linear and
inverts the MixColumn of R123. -/
def Obligations.InverseTablesComputeInvMixColumn : Prop :=
  (∀ x0 x1 x2 x3 : Byte,
    invMixColumnWord (wordOf x0 x1 x2 x3) =
      wordOf (gmul 0x0E x0 ^^^ gmul 0x0B x1 ^^^ gmul 0x0D x2 ^^^ gmul 0x09 x3)
        (gmul 0x09 x0 ^^^ gmul 0x0E x1 ^^^ gmul 0x0B x2 ^^^ gmul 0x0D x3)
        (gmul 0x0D x0 ^^^ gmul 0x09 x1 ^^^ gmul 0x0E x2 ^^^ gmul 0x0B x3)
        (gmul 0x0B x0 ^^^ gmul 0x0D x1 ^^^ gmul 0x09 x2 ^^^ gmul 0x0E x3)) ∧
  (∀ x0 x1 x2 x3 : Byte, invMixColumnWord (wordOf x0 x1 x2 x3) = U1 x0 ^^^ U2 x1 ^^^ U3 x2 ^^^ U4 x3) ∧
  (∀ x0 x1 x2 x3 : Byte, T5 x0 ^^^ T6 x1 ^^^ T7 x2 ^^^ T8 x3 = invMixColumnWord (wordOf (SI x0) (SI x1) (SI x2) (SI x3))) ∧
  (∀ v w : Word, invMixColumnWord (v ^^^ w) = invMixColumnWord v ^^^ invMixColumnWord w) ∧
  (∀ a0 a1 a2 a3 : Byte,
    invMixColumnWord (T1 a0 ^^^ T2 a1 ^^^ T3 a2 ^^^ T4 a3) = wordOf (S a0) (S a1) (S a2) (S a3))

/-- R25, R26, R62, R63: words are assembled and taken apart big-endian, each way the other's inverse. -/
def Obligations.WordsAreBigEndianBytes : Prop :=
  (∀ w : Word, memRead4 (bytesOfWord w) 0 = w) ∧
  (∀ b0 b1 b2 b3 : Byte, bytesOfWord (memRead4 [b0, b1, b2, b3] 0) = [b0, b1, b2, b3]) ∧
  (∀ w : Word, byteK w 0 = w.extractLsb' 24 8 ∧ byteK w 1 = w.extractLsb' 16 8 ∧ byteK w 2 = w.extractLsb' 8 8 ∧
    byteK w 3 = w.extractLsb' 0 8) ∧
  (∀ w : Word, rotl8w w = w.rotateLeft 8)

/-! ## Lines of assembly and runs -/

/-- R95: the lines of the examples, as text, and the frames they assemble to. -/
def Obligations.SampleLinesAssemble : Prop :=
  assembleLine "stat" = some [0x07, 0, 0, 0, 0, 0, 0, 0] ∧
  assembleLine "kinit x\"000102030405060708090a0b0c0d0e0f\"" =
    some ([0x01, 0x10, 0x10, 0, 0, 0, 0, 0] ++ (List.range 16).map (BitVec.ofNat 8)) ∧
  assembleLine "kinit x\"00000000000000000000000000000000000000000000000000000000000000\", 32" =
    some ([0x01, 0x1f, 0x20, 0, 0, 0, 0, 0] ++ List.replicate 31 0) ∧
  assembleLine "encb x\"00112233445566778899aabbccddeeff\"" =
    some ([0x03, 0, 0, 0, 0, 0, 0, 0x10] ++ (List.range 16).map fun i => BitVec.ofNat 8 (17 * i)) ∧
  (∀ key iv : List Byte, key.length = 32 → iv.length = 32 →
    assemble (.cinit key iv (some 32)) = some ([0x02, 0x20, 0x20, 0x20, 0, 0, 0, 0] ++ key ++ iv)) ∧
  assembleLine ".frame 0x2a, 0, 0, 0, 2, x\"abcd\"" = some [0x2a, 0, 0, 0, 0, 0, 0, 2, 0xab, 0xcd]

/-- R297: a run begins right after a reset, with no flag set, and its observation is the list of the responses after that reset:
those of earlier runs do not count. A run has seen FAULTED in a response exactly if the core is in its fault state. A run that has
ended gives no more responses until the host sends another frame; the next reset ends it, and the run that then begins has no
response yet. (Where a reset falls among frames that have arrived is log 6; what the core does while it waits is log 4.) -/
def Obligations.RunIsObservedFromItsReset : Prop :=
  (∀ s t : State, Run s t →
    s.faulted = false ∧ s.ctx.keyed = false ∧ s.ctx.ivValid = false ∧ t.responses = s.responses ++ observation s t ∧
    (t.faulted = true ↔ ¬ FaultFree s t)) ∧
  (∀ s t u : State, Run s t → t.RunEnded → step t = .next u →
    observation t u = [] ∧ (Run s u ∨ (u.JustReset ∧ observation u u = [])))
end

