-- ==== Sys2Proof/Laws/Bytes.lean ====
section
/-! SUPPORT. Laws of bytes, words, byte strings and loops (R25 to R28). -/

namespace Sys2Proof.Machine

/-! ## Bytes of a word -/

theorem byteK_wordOf_0 (b0 b1 b2 b3 : Byte) : byteK (wordOf b0 b1 b2 b3) 0 = b0 := by
  ext i hi
  simp only [byteK, wordOf, BitVec.getElem_setWidth, BitVec.getLsbD_ushiftRight, BitVec.getLsbD_or,
    BitVec.getLsbD_shiftLeft, BitVec.getLsbD_setWidth]
  interval_cases i <;> simp

theorem byteK_wordOf_1 (b0 b1 b2 b3 : Byte) : byteK (wordOf b0 b1 b2 b3) 1 = b1 := by
  ext i hi
  simp only [byteK, wordOf, BitVec.getElem_setWidth, BitVec.getLsbD_ushiftRight, BitVec.getLsbD_or,
    BitVec.getLsbD_shiftLeft, BitVec.getLsbD_setWidth]
  interval_cases i <;> simp

theorem byteK_wordOf_2 (b0 b1 b2 b3 : Byte) : byteK (wordOf b0 b1 b2 b3) 2 = b2 := by
  ext i hi
  simp only [byteK, wordOf, BitVec.getElem_setWidth, BitVec.getLsbD_ushiftRight, BitVec.getLsbD_or,
    BitVec.getLsbD_shiftLeft, BitVec.getLsbD_setWidth]
  interval_cases i <;> simp

theorem byteK_wordOf_3 (b0 b1 b2 b3 : Byte) : byteK (wordOf b0 b1 b2 b3) 3 = b3 := by
  ext i hi
  simp only [byteK, wordOf, BitVec.getElem_setWidth, BitVec.getLsbD_ushiftRight, BitVec.getLsbD_or,
    BitVec.getLsbD_shiftLeft, BitVec.getLsbD_setWidth]
  interval_cases i <;> simp

theorem wordOf_byteK (w : Word) : wordOf (byteK w 0) (byteK w 1) (byteK w 2) (byteK w 3) = w := by
  ext i hi
  simp only [byteK, wordOf, BitVec.getElem_or, BitVec.getElem_shiftLeft, BitVec.getElem_setWidth,
    BitVec.getLsbD_setWidth, BitVec.getLsbD_ushiftRight]
  interval_cases i <;> simp

/-- Every byte of an assembled word (R26). -/
theorem byteK_wordOf (b0 b1 b2 b3 : Byte) :
    byteK (wordOf b0 b1 b2 b3) 0 = b0 ∧ byteK (wordOf b0 b1 b2 b3) 1 = b1 ∧ byteK (wordOf b0 b1 b2 b3) 2 = b2 ∧
      byteK (wordOf b0 b1 b2 b3) 3 = b3 :=
  ⟨byteK_wordOf_0 .., byteK_wordOf_1 .., byteK_wordOf_2 .., byteK_wordOf_3 ..⟩

/-- Two words with the same bytes are the same word. -/
theorem word_ext {v w : Word} (h0 : byteK v 0 = byteK w 0) (h1 : byteK v 1 = byteK w 1) (h2 : byteK v 2 = byteK w 2)
    (h3 : byteK v 3 = byteK w 3) : v = w := by
  rw [← wordOf_byteK v, h0, h1, h2, h3, wordOf_byteK]

@[simp] theorem byteK_xor (v w : Word) (k : Nat) : byteK (v ^^^ w) k = byteK v k ^^^ byteK w k := by
  simp [byteK, BitVec.ushiftRight_xor_distrib]

@[simp] theorem byteK_zero (k : Nat) : byteK 0 k = 0 := by simp [byteK]

theorem wordOf_xor (a0 a1 a2 a3 b0 b1 b2 b3 : Byte) :
    wordOf a0 a1 a2 a3 ^^^ wordOf b0 b1 b2 b3 = wordOf (a0 ^^^ b0) (a1 ^^^ b1) (a2 ^^^ b2) (a3 ^^^ b3) := by
  apply word_ext <;> simp [byteK_wordOf_0, byteK_wordOf_1, byteK_wordOf_2, byteK_wordOf_3]

/-- The bytes of a word rotated left by a byte (R26). -/
theorem byteK_rotl8w (w : Word) :
    byteK (rotl8w w) 0 = byteK w 1 ∧ byteK (rotl8w w) 1 = byteK w 2 ∧ byteK (rotl8w w) 2 = byteK w 3 ∧
      byteK (rotl8w w) 3 = byteK w 0 :=
  byteK_wordOf ..

/-! ## Byte strings -/

@[simp] theorem length_bytesOfWord (w : Word) : (bytesOfWord w).length = 4 := rfl

/-- Reading back a word that was written big-endian (R62, R63). -/
theorem memRead4_bytesOfWord (w : Word) (rest : List Byte) : memRead4 (bytesOfWord w ++ rest) 0 = w := by
  simpa [memRead4, byteAt, bytesOfWord] using wordOf_byteK w

@[simp] theorem length_slice (s : List Byte) (a n : Nat) : (slice s a n).length = min n (s.length - a) := by
  simp [slice]

theorem slice_zero_of_length_le {s : List Byte} {n : Nat} (h : s.length ≤ n) : slice s 0 n = s := by
  simpa [slice] using h

@[simp] theorem length_xorbytes (x y : List Byte) : (xorbytes x y).length = min x.length y.length := by
  simp [xorbytes]

/-- XOR with the same string twice gives the string back. -/
theorem xorbytes_cancel (x y : List Byte) (h : x.length = y.length) : xorbytes (xorbytes x y) y = x := by
  induction x generalizing y with
  | nil => simp [xorbytes]
  | cons a x ih =>
    cases y with
    | nil => simp at h
    | cons b y => simpa [xorbytes, BitVec.xor_assoc] using ih y (by simpa using h)

/-! ## Loops -/

@[simp] theorem forUpTo_zero {α : Type} (body : Nat → α → α) (s : α) : forUpTo 0 body s = s := rfl

theorem forUpTo_succ {α : Type} (n : Nat) (body : Nat → α → α) (s : α) :
    forUpTo (n + 1) body s = body n (forUpTo n body s) := rfl

/-- What holds before a loop and is kept by each turn holds after it. -/
theorem forUpTo_induction {α : Type} (P : Nat → α → Prop) (body : Nat → α → α) (n : Nat) (s : α) (h0 : P 0 s)
    (hs : ∀ i x, i < n → P i x → P (i + 1) (body i x)) : P n (forUpTo n body s) := by
  induction n with
  | zero => exact h0
  | succ n ih => exact hs n _ (Nat.lt_succ_self n) (ih fun i x hi => hs i x (Nat.lt_succ_of_lt hi))

/-- A loop over a range is a loop over its length. -/
theorem forRange_eq {α : Type} (a b : Nat) (body : Nat → α → α) (s : α) :
    forRange a b body s = forUpTo (b + 1 - a) (fun k => body (a + k)) s := rfl

/-- What holds before a loop over a range and is kept by each turn holds after it. -/
theorem forRange_induction {α : Type} (P : Nat → α → Prop) (body : Nat → α → α) (a b : Nat) (s : α) (h0 : P 0 s)
    (hs : ∀ k x, k < b + 1 - a → P k x → P (k + 1) (body (a + k) x)) : P (b + 1 - a) (forRange a b body s) :=
  forUpTo_induction P _ _ s h0 hs

end Sys2Proof.Machine
end

