-- ==== Sys2Proof/Laws/State.lean ====
section
/-! SUPPORT. One lemma per field per update of the state records, each true by rfl, so that no proof unfolds an update. -/

namespace Sys2Proof.Machine

/-! ## The end of a command -/

section respond
variable (s : State) (st : Status) (opc detail : Byte) (out : List Byte)
@[simp] theorem respond_ctx : (s.respond st opc detail out).ctx = s.ctx := rfl
@[simp] theorem respond_faulted : (s.respond st opc detail out).faulted = s.faulted := rfl
@[simp] theorem respond_dp : (s.respond st opc detail out).dp = s.dp := rfl
@[simp] theorem respond_inp : (s.respond st opc detail out).inp = [] := rfl
@[simp] theorem respond_arrivals : (s.respond st opc detail out).arrivals = s.arrivals := rfl
@[simp] theorem respond_responses :
    (s.respond st opc detail out).responses = s.responses ++ [response st opc detail out] := rfl
@[simp] theorem respond_freeCount : (s.respond st opc detail out).freeCount = s.freeCount := rfl
end respond

/-! ## The fields of a response frame (R85) -/

section response
variable (st : Status) (opc detail : Byte) (out : List Byte)
@[simp] theorem response_out : (response st opc detail out).out = out := rfl
@[simp] theorem response_statusCode : (response st opc detail out).statusCode = st.code := by
  simp [Response.statusCode, response, byteK_wordOf_0]
@[simp] theorem response_opc : (response st opc detail out).opc = opc := by
  simp [Response.opc, response, byteK_wordOf_1]
@[simp] theorem response_detail : (response st opc detail out).detail = detail := by
  simp [Response.detail, response, byteK_wordOf_2]
theorem response_reserved : byteK (response st opc detail out).r0 3 = 0 := by
  simp [response, byteK_wordOf_3]
theorem response_r1 (h : out.length < 4294967296) : (response st opc detail out).r1.toNat = out.length := by
  simpa [response] using Nat.mod_eq_of_lt h
end response

/-- Different statuses have different codes (R90). -/
theorem statusCode_injective {a b : Status} (h : a.code = b.code) : a = b := by
  cases a <;> cases b <;> simp [Status.code] at h ⊢

/-! ## The start of a command, reset, the host -/

section port
variable (s : State) (operands : List Byte) (rest : List Arrival) (bytes : List Byte)
@[simp] theorem accept_ctx : (s.accept operands rest).ctx = s.ctx := rfl
@[simp] theorem accept_faulted : (s.accept operands rest).faulted = s.faulted := rfl
@[simp] theorem accept_dp : (s.accept operands rest).dp = Datapath.free s.freeCount := rfl
@[simp] theorem accept_inp : (s.accept operands rest).inp = operands := rfl
@[simp] theorem accept_arrivals : (s.accept operands rest).arrivals = rest := rfl
@[simp] theorem accept_responses : (s.accept operands rest).responses = s.responses := rfl
@[simp] theorem accept_freeCount : (s.accept operands rest).freeCount = s.freeCount + 1 := rfl
@[simp] theorem applyReset_ctx : (s.applyReset rest).ctx = Context.reset := rfl
@[simp] theorem applyReset_faulted : (s.applyReset rest).faulted = false := rfl
@[simp] theorem applyReset_dp : (s.applyReset rest).dp = Datapath.reset := rfl
@[simp] theorem applyReset_inp : (s.applyReset rest).inp = [] := rfl
@[simp] theorem applyReset_arrivals : (s.applyReset rest).arrivals = rest := rfl
@[simp] theorem applyReset_responses : (s.applyReset rest).responses = s.responses := rfl
@[simp] theorem applyReset_freeCount : (s.applyReset rest).freeCount = s.freeCount := rfl
@[simp] theorem send_ctx : (s.send bytes).ctx = s.ctx := rfl
@[simp] theorem send_faulted : (s.send bytes).faulted = s.faulted := rfl
@[simp] theorem send_arrivals : (s.send bytes).arrivals = s.arrivals ++ arrivalsOf bytes := rfl
@[simp] theorem send_responses : (s.send bytes).responses = s.responses := rfl
@[simp] theorem assertReset_ctx : s.assertReset.ctx = s.ctx := rfl
@[simp] theorem assertReset_arrivals : s.assertReset.arrivals = s.arrivals ++ [Arrival.reset] := rfl
@[simp] theorem setFaulted_ctx : s.setFaulted.ctx = s.ctx := rfl
@[simp] theorem setFaulted_faulted : s.setFaulted.faulted = true := rfl
@[simp] theorem setFaulted_dp : s.setFaulted.dp = s.dp := rfl
@[simp] theorem setFaulted_arrivals : s.setFaulted.arrivals = s.arrivals := rfl
@[simp] theorem setFaulted_responses : s.setFaulted.responses = s.responses := rfl
@[simp] theorem setFaulted_freeCount : s.setFaulted.freeCount = s.freeCount := rfl
end port

/-! ## The context -/

section context
variable (c : Context) (blen klen n : Nat) (d : Datapath) (iv : List Byte)
@[simp] theorem markKeyed_keyed : c.markKeyed.keyed = true := rfl
@[simp] theorem markKeyed_ivValid : c.markKeyed.ivValid = false := rfl
@[simp] theorem markKeyed_nb : c.markKeyed.nb = c.nb := rfl
@[simp] theorem markKeyed_nk : c.markKeyed.nk = c.nk := rfl
@[simp] theorem markKeyed_nr : c.markKeyed.nr = c.nr := rfl
@[simp] theorem markKeyed_ke : c.markKeyed.ke = c.ke := rfl
@[simp] theorem markKeyed_kd : c.markKeyed.kd = c.kd := rfl
@[simp] theorem markKeyed_iv : c.markKeyed.iv = c.iv := rfl
@[simp] theorem markKeyedWithIv_keyed : c.markKeyedWithIv.keyed = true := rfl
@[simp] theorem markKeyedWithIv_ivValid : c.markKeyedWithIv.ivValid = true := rfl
@[simp] theorem markKeyedWithIv_nb : c.markKeyedWithIv.nb = c.nb := rfl
@[simp] theorem markKeyedWithIv_nk : c.markKeyedWithIv.nk = c.nk := rfl
@[simp] theorem markKeyedWithIv_nr : c.markKeyedWithIv.nr = c.nr := rfl
@[simp] theorem markKeyedWithIv_ke : c.markKeyedWithIv.ke = c.ke := rfl
@[simp] theorem markKeyedWithIv_kd : c.markKeyedWithIv.kd = c.kd := rfl
@[simp] theorem markKeyedWithIv_iv : c.markKeyedWithIv.iv = c.iv := rfl
@[simp] theorem loadSchedule_keyed : (c.loadSchedule blen klen d).keyed = c.keyed := rfl
@[simp] theorem loadSchedule_ivValid : (c.loadSchedule blen klen d).ivValid = c.ivValid := rfl
@[simp] theorem loadSchedule_nb : (c.loadSchedule blen klen d).nb = BitVec.ofNat 4 (blen / 4) := rfl
@[simp] theorem loadSchedule_nk : (c.loadSchedule blen klen d).nk = BitVec.ofNat 4 (klen / 4) := rfl
@[simp] theorem loadSchedule_nr : (c.loadSchedule blen klen d).nr = BitVec.ofNat 4 (roundsFor blen klen) := rfl
@[simp] theorem loadSchedule_ke : (c.loadSchedule blen klen d).ke = d.ke := rfl
@[simp] theorem loadSchedule_kd : (c.loadSchedule blen klen d).kd = d.kd := rfl
@[simp] theorem loadSchedule_iv : (c.loadSchedule blen klen d).iv = c.iv := rfl
@[simp] theorem loadIv_keyed : (c.loadIv iv n).keyed = c.keyed := by dsimp only [Context.loadIv]
@[simp] theorem loadIv_nb : (c.loadIv iv n).nb = c.nb := by dsimp only [Context.loadIv]
@[simp] theorem loadIv_nk : (c.loadIv iv n).nk = c.nk := by dsimp only [Context.loadIv]
@[simp] theorem loadIv_nr : (c.loadIv iv n).nr = c.nr := by dsimp only [Context.loadIv]
@[simp] theorem loadIv_ke : (c.loadIv iv n).ke = c.ke := by dsimp only [Context.loadIv]
@[simp] theorem loadIv_kd : (c.loadIv iv n).kd = c.kd := by dsimp only [Context.loadIv]
@[simp] theorem loadIv_iv : (c.loadIv iv n).iv = setStoreBytes (freeIvStore n) iv := by dsimp only [Context.loadIv]
end context

/-! ## The datapath -/

section datapath
variable (d : Datapath) (i : Nat) (w : Word) (x : List Byte)
@[simp] theorem setTk_tcnt : (d.setTk i w).tcnt = d.tcnt := rfl
@[simp] theorem setTk_rp : (d.setTk i w).rp = d.rp := rfl
@[simp] theorem setTk_t : (d.setTk i w).t = d.t := rfl
@[simp] theorem setTk_a : (d.setTk i w).a = d.a := rfl
@[simp] theorem setTk_v : (d.setTk i w).v = d.v := rfl
@[simp] theorem setTk_ke : (d.setTk i w).ke = d.ke := rfl
@[simp] theorem setTk_kd : (d.setTk i w).kd = d.kd := rfl
@[simp] theorem setT_tk : (d.setT i w).tk = d.tk := rfl
@[simp] theorem setT_tcnt : (d.setT i w).tcnt = d.tcnt := rfl
@[simp] theorem setT_rp : (d.setT i w).rp = d.rp := rfl
@[simp] theorem setT_a : (d.setT i w).a = d.a := rfl
@[simp] theorem setT_v : (d.setT i w).v = d.v := rfl
@[simp] theorem setT_ke : (d.setT i w).ke = d.ke := rfl
@[simp] theorem setT_kd : (d.setT i w).kd = d.kd := rfl
@[simp] theorem setA_tk : (d.setA i w).tk = d.tk := rfl
@[simp] theorem setA_tcnt : (d.setA i w).tcnt = d.tcnt := rfl
@[simp] theorem setA_rp : (d.setA i w).rp = d.rp := rfl
@[simp] theorem setA_t : (d.setA i w).t = d.t := rfl
@[simp] theorem setA_v : (d.setA i w).v = d.v := rfl
@[simp] theorem setA_ke : (d.setA i w).ke = d.ke := rfl
@[simp] theorem setA_kd : (d.setA i w).kd = d.kd := rfl
@[simp] theorem setV_tk : (d.setV x).tk = d.tk := by dsimp only [Datapath.setV]
@[simp] theorem setV_tcnt : (d.setV x).tcnt = d.tcnt := by dsimp only [Datapath.setV]
@[simp] theorem setV_rp : (d.setV x).rp = d.rp := by dsimp only [Datapath.setV]
@[simp] theorem setV_t : (d.setV x).t = d.t := by dsimp only [Datapath.setV]
@[simp] theorem setV_a : (d.setV x).a = d.a := by dsimp only [Datapath.setV]
@[simp] theorem setV_v : (d.setV x).v = setStoreBytes d.v x := by dsimp only [Datapath.setV]
@[simp] theorem setV_ke : (d.setV x).ke = d.ke := by dsimp only [Datapath.setV]
@[simp] theorem setV_kd : (d.setV x).kd = d.kd := by dsimp only [Datapath.setV]
end datapath

/-! ## Reset -/

@[simp] theorem reset_keyed : State.reset.ctx.keyed = false := rfl
@[simp] theorem reset_ivValid : State.reset.ctx.ivValid = false := rfl
@[simp] theorem reset_faulted : State.reset.faulted = false := rfl
@[simp] theorem reset_arrivals : State.reset.arrivals = [] := rfl
@[simp] theorem reset_responses : State.reset.responses = [] := rfl
@[simp] theorem reset_inp : State.reset.inp = [] := rfl

end Sys2Proof.Machine
end

