-- ==== Sys2Proof/Laws/Stores.lean ====
section
/-! SUPPORT. Reading after writing the registers and stores: word registers, round-key arrays, 32-byte stores. -/

namespace Sys2Proof.Machine

/-- A word register reads back what was written, at that index alone. -/
theorem wordReg_setWordReg (r : Vector Word 8) (i j : Nat) (w : Word) :
    wordReg (setWordReg r i w) j = if i = j ∧ j < 8 then w else wordReg r j := by
  unfold wordReg setWordReg
  rw [Vector.getElem?_setIfInBounds]
  by_cases h : i = j
  · subst h
    by_cases hi : i < 8 <;> simp [hi]
  · simp [h]

theorem wordReg_of_ge {r : Vector Word 8} {i : Nat} (h : 8 ≤ i) : wordReg r i = 0 := by
  simp [wordReg, h]

theorem roundKey_of_ge {k : RoundKeys} {r c : Nat} (h : 15 ≤ r ∨ 8 ≤ c) : roundKey k r c = 0 := by
  rcases h with h | h
  · simp only [roundKey, Vector.getElem?_eq_none h, wordReg]
    by_cases hc : c < 8 <;> simp [hc]
  · exact wordReg_of_ge h

/-- A round-key array reads back what was written, at that entry alone. -/
theorem roundKey_setRoundKey (k : RoundKeys) (r c r' c' : Nat) (w : Word) :
    roundKey (setRoundKey k r c w) r' c' = if r = r' ∧ c = c' ∧ r' < 15 ∧ c' < 8 then w else roundKey k r' c' := by
  unfold roundKey setRoundKey
  rw [Vector.getElem?_setIfInBounds]
  by_cases h : r = r'
  · subst h
    by_cases hr : r < 15
    · simp [hr, wordReg_setWordReg]
    · simp [hr]
  · simp [h]

theorem length_storeBytes (v : Vector Byte 32) (n : Nat) : (storeBytes v n).length = min n 32 := by
  simp [storeBytes]

/-- A 32-byte store reads back the string written over its first bytes. -/
theorem storeBytes_setStoreBytes (v : Vector Byte 32) (s : List Byte) (h : s.length ≤ 32) :
    storeBytes (setStoreBytes v s) s.length = s := by
  apply List.ext_getElem
  · simp [length_storeBytes, h]
  · intro i h1 h2
    simp [storeBytes, setStoreBytes, h2]

/-- Two stores over which the same whole string was written agree on it, whatever they held. -/
theorem storeBytes_setStoreBytes_eq (v v' : Vector Byte 32) (s : List Byte) (n : Nat) (h : n ≤ s.length) :
    storeBytes (setStoreBytes v s) n = storeBytes (setStoreBytes v' s) n := by
  apply List.ext_getElem
  · simp [length_storeBytes]
  · intro i h1 h2
    have hi : i < s.length := by simp [length_storeBytes] at h1; omega
    simp [storeBytes, setStoreBytes, hi]

end Sys2Proof.Machine
end

