-- ==== Sys2Proof/Laws/Blocks.lean ====
section
/-! SUPPORT. What the operations of EncryptBlock and DecryptBlock do to the registers t and a, each said once (R191 to R195, R211 to
R215). -/

namespace Sys2Proof.Machine

/-! ## The registers t and a -/

theorem getT_setT (d : Datapath) (i j : Nat) (w : Word) :
    (d.setT i w).getT j = if i = j ∧ j < 8 then w else d.getT j := wordReg_setWordReg ..

@[simp] theorem getT_setA (d : Datapath) (i j : Nat) (w : Word) : (d.setA i w).getT j = d.getT j := rfl

theorem wordReg_setA (d : Datapath) (i j : Nat) (w : Word) :
    wordReg (d.setA i w).a j = if i = j ∧ j < 8 then w else wordReg d.a j := wordReg_setWordReg ..

/-- `d'` differs from `d` in the registers t and a at most (R195, R215). -/
def Datapath.SameButTA (d d' : Datapath) : Prop := ∃ t a, d' = { d with t := t, a := a }

theorem Datapath.SameButTA.refl (d : Datapath) : d.SameButTA d := ⟨d.t, d.a, rfl⟩

theorem Datapath.SameButTA.trans {d d' d'' : Datapath} (h : d.SameButTA d') (h' : d'.SameButTA d'') : d.SameButTA d'' := by
  obtain ⟨t, a, rfl⟩ := h
  obtain ⟨t', a', rfl⟩ := h'
  exact ⟨t', a', rfl⟩

theorem sameButTA_setT (d : Datapath) (i : Nat) (w : Word) : d.SameButTA (d.setT i w) := ⟨_, d.a, rfl⟩

theorem sameButTA_setA (d : Datapath) (i : Nat) (w : Word) : d.SameButTA (d.setA i w) := ⟨d.t, _, rfl⟩

/-- A loop whose turns differ in t and a at most does so too. -/
theorem sameButTA_forUpTo (n : Nat) (body : Nat → Datapath → Datapath) (d : Datapath)
    (h : ∀ (i : Nat) (x : Datapath), x.SameButTA (body i x)) : d.SameButTA (forUpTo n body d) :=
  forUpTo_induction (fun _ x => d.SameButTA x) body n d (.refl d) fun i x _ hx => hx.trans (h i x)

/-! ## The initial key addition (R192, R212) -/

theorem sameButTA_addInitialKey (nb : Nat) (k : RoundKeys) (block : List Byte) (d : Datapath) :
    d.SameButTA (addInitialKey nb k block d) :=
  sameButTA_forUpTo _ _ _ fun _ x => sameButTA_setT x ..

theorem getT_addInitialKey (nb : Nat) (k : RoundKeys) (block : List Byte) (d : Datapath) (j : Nat) :
    (addInitialKey nb k block d).getT j =
      if j < nb ∧ j < 8 then memRead4 block (4 * j) ^^^ roundKey k 0 j else d.getT j := by
  induction nb with
  | zero => simp [addInitialKey]
  | succ n ih =>
    unfold addInitialKey at ih ⊢
    rw [forUpTo_succ, getT_setT, ih]
    by_cases h : n = j
    · subst h; simp
    · have : j < n + 1 ↔ j < n := by omega
      simp [h, this]

/-! ## A middle round (R193, R213) -/

theorem sameButTA_copyAToT (nb : Nat) (d : Datapath) : d.SameButTA (copyAToT nb d) :=
  sameButTA_forUpTo _ _ _ fun _ x => sameButTA_setT x ..

theorem copyAToT_a (nb : Nat) (d : Datapath) : (copyAToT nb d).a = d.a := by
  induction nb with
  | zero => rfl
  | succ n ih => exact ih

/-- The copy puts a's first nb words into t. -/
theorem getT_copyAToT (nb : Nat) (d : Datapath) (j : Nat) :
    (copyAToT nb d).getT j = if j < nb ∧ j < 8 then wordReg d.a j else d.getT j := by
  induction nb with
  | zero => simp [copyAToT]
  | succ n ih =>
    have ha := copyAToT_a n d
    unfold copyAToT at ih ha ⊢
    rw [forUpTo_succ, getT_setT, ih, ha]
    by_cases h : n = j
    · subst h; simp
    · have : j < n + 1 ↔ j < n := by omega
      simp [h, this]

/-- A loop that fills a from the old t: t stays, and a takes the new words. -/
theorem fillA (nb : Nat) (f : Nat → Datapath → Word) (hf : ∀ i x y, x.t = y.t → f i x = f i y) (d : Datapath) :
    (forUpTo nb (fun i x => x.setA i (f i x)) d).t = d.t ∧
    ∀ j, wordReg (forUpTo nb (fun i x => x.setA i (f i x)) d).a j =
      if j < nb ∧ j < 8 then f j d else wordReg d.a j := by
  induction nb with
  | zero => simp
  | succ n ih =>
    refine ⟨ih.1, fun j => ?_⟩
    rw [forUpTo_succ, wordReg_setA, ih.2, hf n _ d ih.1]
    by_cases h : n = j
    · subst h; simp
    · have : j < n + 1 ↔ j < n := by omega
      simp [h, this]

/-- A round is a filled from the old t and then copied into t. -/
theorem getT_fill_copy (nb : Nat) (f : Nat → Datapath → Word) (hf : ∀ i x y, x.t = y.t → f i x = f i y) (d : Datapath)
    (j : Nat) :
    (copyAToT nb (forUpTo nb (fun i x => x.setA i (f i x)) d)).getT j = if j < nb ∧ j < 8 then f j d else d.getT j := by
  obtain ⟨ht, ha⟩ := fillA nb f hf d
  have hg : ∀ i, (forUpTo nb (fun i x => x.setA i (f i x)) d).getT i = d.getT i := fun i => by simp [Datapath.getT, ht]
  rw [getT_copyAToT, ha, hg]
  split <;> rfl

theorem encryptRoundWord_congr (nb : Nat) (ke : RoundKeys) (r i : Nat) (x y : Datapath) (h : x.t = y.t) :
    encryptRoundWord nb ke r i x = encryptRoundWord nb ke r i y := by
  simp [encryptRoundWord, Datapath.getT, h]

theorem decryptRoundWord_congr (nb : Nat) (kd : RoundKeys) (r i : Nat) (x y : Datapath) (h : x.t = y.t) :
    decryptRoundWord nb kd r i x = decryptRoundWord nb kd r i y := by
  simp [decryptRoundWord, Datapath.getT, h]

/-- A middle round of encryption gives each state word its new value, all from the old t (R193, R312). -/
theorem getT_encryptRound (nb : Nat) (ke : RoundKeys) (r : Nat) (d : Datapath) (j : Nat) :
    (encryptRound nb ke r d).getT j = if j < nb ∧ j < 8 then encryptRoundWord nb ke r j d else d.getT j :=
  getT_fill_copy nb (encryptRoundWord nb ke r) (encryptRoundWord_congr nb ke r) d j

/-- A middle round of decryption gives each state word its new value, all from the old t (R213, R312). -/
theorem getT_decryptRound (nb : Nat) (kd : RoundKeys) (r : Nat) (d : Datapath) (j : Nat) :
    (decryptRound nb kd r d).getT j = if j < nb ∧ j < 8 then decryptRoundWord nb kd r j d else d.getT j :=
  getT_fill_copy nb (decryptRoundWord nb kd r) (decryptRoundWord_congr nb kd r) d j

theorem sameButTA_encryptRound (nb : Nat) (ke : RoundKeys) (r : Nat) (d : Datapath) :
    d.SameButTA (encryptRound nb ke r d) :=
  (sameButTA_forUpTo _ _ _ fun _ x => sameButTA_setA x ..).trans (sameButTA_copyAToT ..)

theorem sameButTA_decryptRound (nb : Nat) (kd : RoundKeys) (r : Nat) (d : Datapath) :
    d.SameButTA (decryptRound nb kd r d) :=
  (sameButTA_forUpTo _ _ _ fun _ x => sameButTA_setA x ..).trans (sameButTA_copyAToT ..)

/-! ## The result bytes (R194, R214) -/

/-- The bytes of nb four-byte groups. -/
theorem length_flatMap_range4 (nb : Nat) (f : Nat → List Byte) (h : ∀ i, (f i).length = 4) :
    ((List.range nb).flatMap f).length = 4 * nb := by
  induction nb with
  | zero => rfl
  | succ n ih => rw [List.range_succ, List.flatMap_append, List.length_append, ih]; simp [h]; omega

/-- Byte k of group i of nb four-byte groups. -/
theorem getElem?_flatMap_range4 (nb : Nat) (f : Nat → List Byte) (h : ∀ i, (f i).length = 4) (i k : Nat) (hi : i < nb)
    (hk : k < 4) : ((List.range nb).flatMap f)[4 * i + k]? = (f i)[k]? := by
  induction nb with
  | zero => omega
  | succ n ih =>
    rw [List.range_succ, List.flatMap_append, List.getElem?_append, length_flatMap_range4 n f h]
    by_cases hn : i < n
    · rw [if_pos (by omega), ih hn]
    · have : i = n := by omega
      subst this
      rw [if_neg (by omega)]
      simp

/-- Word i of nb four-byte groups. -/
theorem memRead4_flatMap_range4 (nb : Nat) (f : Nat → List Byte) (h : ∀ i, (f i).length = 4) (i : Nat) (hi : i < nb) :
    memRead4 ((List.range nb).flatMap f) (4 * i) = memRead4 (f i) 0 := by
  have k0 := getElem?_flatMap_range4 nb f h i 0 hi (by omega)
  rw [Nat.add_zero] at k0
  simp only [memRead4, byteAt, k0, getElem?_flatMap_range4 nb f h i _ hi (show 1 < 4 by omega),
    getElem?_flatMap_range4 nb f h i _ hi (show 2 < 4 by omega), getElem?_flatMap_range4 nb f h i _ hi (show 3 < 4 by omega)]

/-- A string of 4·nb bytes is its four-byte groups. -/
theorem flatMap_byteAt (nb : Nat) (s : List Byte) (h : s.length = 4 * nb) :
    ((List.range nb).flatMap fun i => [byteAt s (4 * i), byteAt s (4 * i + 1), byteAt s (4 * i + 2), byteAt s (4 * i + 3)]) =
      s := by
  apply List.ext_getElem?
  intro j
  by_cases hj : j < 4 * nb
  · have key := getElem?_flatMap_range4 nb
      (fun i => [byteAt s (4 * i), byteAt s (4 * i + 1), byteAt s (4 * i + 2), byteAt s (4 * i + 3)]) (fun _ => rfl) (j / 4)
      (j % 4) (by omega) (by omega)
    rw [show 4 * (j / 4) + j % 4 = j by omega] at key
    rw [key, List.getElem?_eq_getElem (by omega : j < s.length)]
    obtain ⟨k, hk, e⟩ : ∃ k, j % 4 = k ∧ j = 4 * (j / 4) + k := ⟨j % 4, rfl, by omega⟩
    have hk4 : k < 4 := by omega
    rw [hk]
    interval_cases k <;> simp only [List.getElem?_cons_zero, List.getElem?_cons_succ, byteAt] <;>
      first
        | rw [← e, List.getElem?_eq_getElem (by omega : j < s.length)]; rfl
        | rw [← Nat.add_zero (4 * (j / 4)), ← e, List.getElem?_eq_getElem (by omega : j < s.length)]; rfl
  · rw [List.getElem?_eq_none, List.getElem?_eq_none (by omega)]
    rw [length_flatMap_range4 _ _ fun _ => rfl]
    omega

end Sys2Proof.Machine
end

