-- ==== Sys2Proof/Laws/Cbc.lean ====
section
/-! SUPPORT. The blocks of a message and the chaining value (R232, R233). -/

namespace Sys2Proof.Machine

/-- A block of a message of n whole blocks is a whole block. -/
theorem length_messageBlock {bs n j : Nat} {m : List Byte} (h : m.length = n * bs) (hj : j < n) :
    (messageBlock bs m j).length = bs := by
  have : (j + 1) * bs ≤ n * bs := Nat.mul_le_mul_right bs hj
  rw [Nat.succ_mul] at this
  simp only [messageBlock, length_slice]
  omega

/-- Appending leaves the blocks before. -/
theorem messageBlock_append_of_lt {bs n j : Nat} {m : List Byte} (x : List Byte) (h : m.length = n * bs) (hj : j < n) :
    messageBlock bs (m ++ x) j = messageBlock bs m j := by
  have : (j + 1) * bs ≤ n * bs := Nat.mul_le_mul_right bs hj
  rw [Nat.succ_mul] at this
  simp only [messageBlock, slice]
  rw [List.drop_append_of_le_length (by omega), List.take_append_of_le_length (by simp; omega)]

/-- The appended block is the next one. -/
theorem messageBlock_append_self {bs n : Nat} {m x : List Byte} (h : m.length = n * bs) (hx : x.length = bs) :
    messageBlock bs (m ++ x) n = x := by
  simp only [messageBlock, slice, ← h, List.drop_left]
  exact List.take_of_length_le (by omega)

/-- Two messages of n whole blocks with the same blocks are the same. -/
theorem message_ext {bs n : Nat} {m m' : List Byte} (h : m.length = n * bs) (h' : m'.length = n * bs)
    (hb : ∀ j, j < n → messageBlock bs m j = messageBlock bs m' j) : m = m' := by
  induction n generalizing m m' with
  | zero =>
    rw [Nat.zero_mul] at h h'
    rw [List.length_eq_zero_iff.mp h, List.length_eq_zero_iff.mp h']
  | succ n ih =>
    rw [Nat.succ_mul] at h h'
    have e0 := hb 0 (Nat.succ_pos n)
    simp only [messageBlock, slice, Nat.zero_mul, List.drop_zero] at e0
    rw [← List.take_append_drop bs m, ← List.take_append_drop bs m', e0]
    congr 1
    refine ih (by simp; omega) (by simp; omega) fun j hj => ?_
    have e := hb (j + 1) (Nat.succ_lt_succ hj)
    simp only [messageBlock, slice, Nat.succ_mul] at e ⊢
    rw [List.drop_drop, List.drop_drop, Nat.add_comm bs, e]

/-- The chaining value reads back what was put there. -/
theorem storeBytes_setV {d : Datapath} {x : List Byte} {bs : Nat} (hx : x.length = bs) (h : bs ≤ 32) :
    storeBytes (d.setV x).v bs = x := by
  subst hx
  rw [setV_v]
  exact storeBytes_setStoreBytes _ _ h

/-- A loop over n blocks turns n times. -/
theorem blocks_div {bs n : Nat} {m : List Byte} (h : m.length = n * bs) (hbs : 0 < bs) : m.length / bs = n := by
  rw [h, Nat.mul_div_cancel _ hbs]

end Sys2Proof.Machine
end

