-- ==== Sys2Proof/Laws/Commands.lean ====
section
/-! SUPPORT. What each command can do, said once: if it answers a next state, that state is one of these. No command answers
anything else. -/

namespace Sys2Proof.Machine

/-- A command under the fault check either answers FAULTED or does what it would do. -/
theorem unlessFaulted_cases {s t : State} {opc : Byte} {r : Result} (h : unlessFaulted s opc r = .next t) :
    (s.faulted = true ∧ t = s.respond .faulted opc 0 []) ∨ (s.faulted = false ∧ r = .next t) := by
  unfold unlessFaulted raise at h
  cases hf : s.faulted
  · rw [hf] at h
    exact .inr ⟨rfl, by simpa using h⟩
  · rw [hf] at h
    exact .inl ⟨rfl, by simpa using h.symm⟩

/-- The fault check of a core with no fault. -/
theorem unlessFaulted_of_clear {s : State} (h : s.faulted = false) (opc : Byte) (r : Result) :
    unlessFaulted s opc r = r := by
  simp [unlessFaulted, h]

/-- The fault check of a faulted core (R280). -/
theorem unlessFaulted_of_faulted {s : State} (h : s.faulted = true) (opc : Byte) (r : Result) :
    unlessFaulted s opc r = .next (s.respond .faulted opc 0 []) := by
  simp [unlessFaulted, h, raise]

/-- An error ends the command in one response. -/
theorem raise_eq (s : State) (st : Status) (opc detail : Byte) :
    raise s st opc detail = .next (s.respond st opc detail []) := rfl

/-- KINIT (R160): an error, or the schedule loaded. -/
theorem execKinit_cases {klen blen : Nat} {s t : State} (h : execKinit klen blen s = .next t) :
    (∃ st, st ≠ Status.ok ∧ t = s.respond st 0x01 0 []) ∨
    (s.faulted = false ∧ LegalSize blen ∧ LegalSize klen ∧
      t = State.respond { s with
        ctx := (s.ctx.loadSchedule blen klen (scheduleFor (keyOperand s.inp klen) blen klen s.dp)).markKeyed
        dp := scheduleFor (keyOperand s.inp klen) blen klen s.dp } .ok 0x01 0 []) := by
  rcases unlessFaulted_cases h with ⟨-, rfl⟩ | ⟨hf, h⟩
  · exact .inl ⟨.faulted, by decide, rfl⟩
  · split at h
    · exact .inl ⟨.badBlockSize, by decide, by simpa [raise] using h.symm⟩
    · split at h
      · exact .inl ⟨.badKeyLength, by decide, by simpa [raise] using h.symm⟩
      · rename_i h1 h2
        exact .inr ⟨hf, not_not.mp h1, not_not.mp h2, by simpa [finish] using h.symm⟩

/-- CINIT (R234): an error, or the schedule and the IV loaded. -/
theorem execCinit_cases {klen blen ivlen : Nat} {s t : State} (h : execCinit klen blen ivlen s = .next t) :
    (∃ st, st ≠ Status.ok ∧ t = s.respond st 0x02 0 []) ∨
    (s.faulted = false ∧ LegalSize blen ∧ LegalSize klen ∧ ivlen = blen ∧
      t = State.respond { s with
        ctx := ((s.ctx.loadSchedule blen klen (scheduleFor (keyOperand s.inp klen) blen klen s.dp)).loadIv
          (ivOperand s.inp klen ivlen) s.freeCount).markKeyedWithIv
        dp := scheduleFor (keyOperand s.inp klen) blen klen s.dp } .ok 0x02 0 []) := by
  rcases unlessFaulted_cases h with ⟨-, rfl⟩ | ⟨hf, h⟩
  · exact .inl ⟨.faulted, by decide, rfl⟩
  · split at h
    · exact .inl ⟨.badBlockSize, by decide, by simpa [raise] using h.symm⟩
    · split at h
      · exact .inl ⟨.badKeyLength, by decide, by simpa [raise] using h.symm⟩
      · split at h
        · exact .inl ⟨.badIvLength, by decide, by simpa [raise] using h.symm⟩
        · rename_i h1 h2 h3
          exact .inr ⟨hf, not_not.mp h1, not_not.mp h2, not_not.mp h3, by simpa [finish] using h.symm⟩

/-- ENCB (R190): an error, or the block encrypted. -/
theorem execEncb_cases {dlen : Nat} {s t : State} (h : execEncb dlen s = .next t) :
    (∃ st, st ≠ Status.ok ∧ t = s.respond st 0x03 0 []) ∨
    (s.faulted = false ∧ s.ctx.keyed = true ∧ dlen = s.ctx.blockBytes ∧
      t = State.respond { s with
        dp := (encryptBlock s.ctx.blockWords s.ctx.rounds s.ctx.ke (dataOperand s.inp 0 0 dlen) s.dp).2 } .ok 0x03 0
        (encryptBlock s.ctx.blockWords s.ctx.rounds s.ctx.ke (dataOperand s.inp 0 0 dlen) s.dp).1) := by
  rcases unlessFaulted_cases h with ⟨-, rfl⟩ | ⟨hf, h⟩
  · exact .inl ⟨.faulted, by decide, rfl⟩
  · split at h
    · exact .inl ⟨.notKeyed, by decide, by simpa [raise] using h.symm⟩
    · split at h
      · exact .inl ⟨.badBlockLength, by decide, by simpa [raise] using h.symm⟩
      · rename_i h1 h2
        exact .inr ⟨hf, by simpa using h1, not_not.mp h2, by simpa [finish] using h.symm⟩

/-- DECB (R210): an error, or the block decrypted. -/
theorem execDecb_cases {dlen : Nat} {s t : State} (h : execDecb dlen s = .next t) :
    (∃ st, st ≠ Status.ok ∧ t = s.respond st 0x04 0 []) ∨
    (s.faulted = false ∧ s.ctx.keyed = true ∧ dlen = s.ctx.blockBytes ∧
      t = State.respond { s with
        dp := (decryptBlock s.ctx.blockWords s.ctx.rounds s.ctx.kd (dataOperand s.inp 0 0 dlen) s.dp).2 } .ok 0x04 0
        (decryptBlock s.ctx.blockWords s.ctx.rounds s.ctx.kd (dataOperand s.inp 0 0 dlen) s.dp).1) := by
  rcases unlessFaulted_cases h with ⟨-, rfl⟩ | ⟨hf, h⟩
  · exact .inl ⟨.faulted, by decide, rfl⟩
  · split at h
    · exact .inl ⟨.notKeyed, by decide, by simpa [raise] using h.symm⟩
    · split at h
      · exact .inl ⟨.badBlockLength, by decide, by simpa [raise] using h.symm⟩
      · rename_i h1 h2
        exact .inr ⟨hf, by simpa using h1, not_not.mp h2, by simpa [finish] using h.symm⟩

/-- CBCE (R240), for any parameters: an error, or the padded message encrypted in a chain. -/
theorem cbcEncryptMessage_cases {p : Params} {dlen : Nat} {s t : State} (h : cbcEncryptMessage p dlen s = .next t) :
    (∃ st, st ≠ Status.ok ∧ t = s.respond st 0x05 0 []) ∨
    (s.faulted = false ∧ s.ctx.keyed = true ∧ s.ctx.ivValid = true ∧ dlen ≤ p.maxMsgLen ∧
      ∃ padded, padded = p.padEncode s.ctx.blockBytes (dataOperand s.inp 0 0 dlen) ∧ padded.length ≤ p.maxMsgLen ∧
        padded.length % s.ctx.blockBytes = 0 ∧
        t = State.respond { s with dp := (cbcEncryptChain s.ctx padded s.dp).2 } .ok 0x05 0
          (cbcEncryptChain s.ctx padded s.dp).1) := by
  rcases unlessFaulted_cases h with ⟨-, rfl⟩ | ⟨hf, h⟩
  · exact .inl ⟨.faulted, by decide, rfl⟩
  · split at h
    · exact .inl ⟨.notKeyed, by decide, by simpa [raise] using h.symm⟩
    split at h
    · exact .inl ⟨.noIv, by decide, by simpa [raise] using h.symm⟩
    split at h
    · exact .inl ⟨.msgTooLong, by decide, by simpa [raise] using h.symm⟩
    dsimp only at h
    split at h
    · exact .inl ⟨.msgTooLong, by decide, by simpa [raise] using h.symm⟩
    split at h
    · exact .inl ⟨.badBlockLength, by decide, by simpa [raise] using h.symm⟩
    · rename_i h1 h2 h3 h4 h5
      exact .inr ⟨hf, by simpa using h1, by simpa using h2, by omega, _, rfl, by omega, by omega,
        by simpa [finish] using h.symm⟩

/-- CBCD (R244), for any parameters: an error before decryption; the length fault; or the chain decrypted and then what PAD.decode
says of it. -/
theorem cbcDecryptMessage_cases {p : Params} {dlen : Nat} {s t : State} (h : cbcDecryptMessage p dlen s = .next t) :
    (∃ st, st ≠ Status.ok ∧ t = s.respond st 0x06 0 []) ∨
    (s.faulted = false ∧ s.ctx.keyed = true ∧ s.ctx.ivValid = true ∧ dlen ≤ p.maxMsgLen ∧
      ((dlen % s.ctx.blockBytes ≠ 0 ∧ t = s.setFaulted.respond .faulted 0x06 0 []) ∨
       (dlen % s.ctx.blockBytes = 0 ∧
        ∃ s1 q, s1 = { s with dp := (cbcDecryptChain s.ctx (dataOperand s.inp 0 0 dlen) s.dp).2 } ∧
          q = (cbcDecryptChain s.ctx (dataOperand s.inp 0 0 dlen) s.dp).1 ∧
          ((∃ e, p.padDecode s.ctx.blockBytes q = .err e ∧ t = s1.respond .paddingError 0x06 e []) ∨
           (∃ m, p.padDecode s.ctx.blockBytes q = .ok m ∧ p.maxMsgLen < m.length ∧ t = s1.respond .msgTooLong 0x06 0 []) ∨
           (∃ m, p.padDecode s.ctx.blockBytes q = .ok m ∧ m.length ≤ p.maxMsgLen ∧ t = s1.respond .ok 0x06 0 m))))) := by
  rcases unlessFaulted_cases h with ⟨-, rfl⟩ | ⟨hf, h⟩
  · exact .inl ⟨.faulted, by decide, rfl⟩
  · split at h
    · exact .inl ⟨.notKeyed, by decide, by simpa [raise] using h.symm⟩
    split at h
    · exact .inl ⟨.noIv, by decide, by simpa [raise] using h.symm⟩
    split at h
    · exact .inl ⟨.msgTooLong, by decide, by simpa [raise] using h.symm⟩
    rename_i h1 h2 h3
    refine .inr ⟨hf, by simpa using h1, by simpa using h2, by omega, ?_⟩
    split at h
    · exact .inl ⟨by assumption, by simpa [raise] using h.symm⟩
    · refine .inr ⟨by omega, _, _, rfl, rfl, ?_⟩
      dsimp only at h
      split at h
      · exact .inl ⟨_, by assumption, by simpa [raise] using h.symm⟩
      · split at h
        · exact .inr (.inl ⟨_, by assumption, by omega, by simpa [raise] using h.symm⟩)
        · exact .inr (.inr ⟨_, by assumption, by omega, by simpa [finish] using h.symm⟩)

/-- Every command answers a next state: no arm of `exec` faults or refuses. -/
theorem exec_answers (i : Instr) (s : State) : ∃ t, exec i s = .next t := by
  cases i <;>
    simp only [exec, execKinit, execCinit, execEncb, execDecb, execCbce, execCbcd, execStat, unlessFaulted, cbcEncryptMessage,
      cbcDecryptMessage, raise, finish]
  all_goals repeat' (first | exact ⟨_, rfl⟩ | split)

/-- A frame that is no command is answered with an error (R280, R278). -/
theorem illegalCommand_cases (s : State) (opc : Byte) :
    ∃ st, st ≠ Status.ok ∧ illegalCommand s opc = .next (s.respond st opc 0 []) := by
  unfold illegalCommand unlessFaulted
  split
  · exact ⟨.faulted, by decide, rfl⟩
  · exact ⟨.illegalCommand, by decide, rfl⟩

/-- STAT (R260): the payload, with the status of the fault flag. -/
theorem execStat_eq (s : State) :
    execStat s = .next (s.respond (if s.faulted then .faulted else .ok) 0x07 0 s.statPayload) := rfl

/-- What `State.respond` leaves is one response, and the fault flag goes with its status where it did before. -/
theorem one_response {s s1 t : State} {st : Status} {opc detail : Byte} {out : List Byte}
    (h : s1.respond st opc detail out = t) (hr : s1.responses = s.responses) (hs : st = .faulted ↔ s1.faulted = true) :
    ∃ st opc detail out, t.responses = s.responses ++ [response st opc detail out] ∧ (st = .faulted ↔ t.faulted = true) := by
  subst h
  exact ⟨st, opc, detail, out, by simp [hr], by simpa using hs⟩

/-- Every command ends in one response, and its status is FAULTED exactly if the core is in its fault state after it (R41, R280). -/
theorem exec_one_response {i : Instr} {s t : State} (h : exec i s = .next t) :
    ∃ st opc detail out, t.responses = s.responses ++ [response st opc detail out] ∧ (st = .faulted ↔ t.faulted = true) := by
  cases hf : s.faulted <;> cases i <;>
    simp only [exec, execKinit, execCinit, execEncb, execDecb, execCbce, execCbcd, execStat, cbcEncryptMessage,
      cbcDecryptMessage, unlessFaulted, hf, if_true, Bool.false_eq_true, if_false, raise, finish] at h
  all_goals repeat' split at h
  all_goals
    injection h with h
    exact one_response h rfl (by simp [hf, State.setFaulted])

/-- So does a frame that is no command (R278, R280). -/
theorem illegalCommand_one_response {s t : State} {opc : Byte} (h : illegalCommand s opc = .next t) :
    ∃ st opc detail out, t.responses = s.responses ++ [response st opc detail out] ∧ (st = .faulted ↔ t.faulted = true) := by
  cases hf : s.faulted <;> simp only [illegalCommand, unlessFaulted, hf, if_true, Bool.false_eq_true, if_false, raise] at h <;>
    (injection h with h; exact one_response h rfl (by simp [hf]))

end Sys2Proof.Machine
end

