-- ==== Sys2Proof/Laws/Decode.lean ====
section
/-! SUPPORT. Laws of the header: what well-formed says, a header read back from its bytes, and the must-be-zero check (R81, R86,
R87). -/

namespace Sys2Proof

open Sys2Proof.Machine

/-- Well-formed says that each field fits its header field (R81). -/
theorem wellFormed_iff (i : Instr) :
    i.WellFormed ↔ i.klen < 256 ∧ i.blen < 256 ∧ i.ivlen < 256 ∧ i.dlen < 4294967296 := by
  simp [Instr.WellFormed, Instr.wf, and_assoc]

/-- A header has 8 bytes (R80). -/
@[simp] theorem length_headerBytes (h : Header) : h.bytes.length = 8 := rfl

/-- A header is read back from its bytes, whatever follows (R80, R81). -/
theorem headerOfBytes_bytes (h : Header) (rest : List Byte) : Header.ofBytes ((h.bytes ++ rest).take 8) = h := by
  obtain ⟨o, k, b, i, d⟩ := h
  simp [Header.ofBytes, Header.bytes, bytesOfWord, memRead4, byteAt, Header.ofWords, Header.word0, Header.word1,
    wordOf_byteK, byteK_wordOf_0, byteK_wordOf_1, byteK_wordOf_2, byteK_wordOf_3]

/-- A checked header that is a command is that command, and its must-be-zero fields are zero (R87). -/
theorem checked_instr {h : Header} {zeros : List HeaderField} {i j : Instr} (hc : h.checked zeros i = .instr j) :
    i = j ∧ h.firstNonZero zeros = none := by
  unfold Header.checked at hc
  split at hc
  · exact ⟨by simpa using hc, by assumption⟩
  · cases hc

/-- The must-be-zero check passes just when the first field is zero and the check of the others passes. -/
theorem firstNonZero_cons (h : Header) (f : HeaderField) (fs : List HeaderField) :
    h.firstNonZero (f :: fs) = none ↔
      (match f with
        | .klen => h.klen = 0
        | .blen => h.blen = 0
        | .ivlen => h.ivlen = 0
        | .dlen => h.dlen = 0) ∧ h.firstNonZero fs = none := by
  cases f <;> simp [Header.firstNonZero] <;> split <;> simp_all

@[simp] theorem firstNonZero_nil (h : Header) : h.firstNonZero [] = none := rfl

end Sys2Proof
end

