-- ==== Sys2Proof/Laws/GfTables.lean ====
section
/-! SUPPORT. The lanes of the word tables, and multiplication by the matrix coefficients as doublings: what the proofs about MixColumn
and InvMixColumn rest on (R114, R119, R123, R127). -/

-- One theorem after another: many kernel evaluations at once ask for more threads than the check's memory limit allows.
set_option Elab.async false

namespace Sys2Proof.Machine

open Sys2Proof.Machine.Rom

/-! ## Doubling is linear (R114) -/

theorem xtime_xor (x y : Byte) : xtime (x ^^^ y) = xtime x ^^^ xtime y := by
  have h (a b c : Byte) : a ^^^ c ^^^ (b ^^^ c) = a ^^^ b := by
    rw [BitVec.xor_assoc, BitVec.xor_comm b c, ← BitVec.xor_assoc c, BitVec.xor_self, BitVec.zero_xor]
  unfold xtime
  rw [BitVec.shiftLeft_xor_distrib, BitVec.getLsbD_xor]
  cases x.getLsbD 7 <;> cases y.getLsbD 7 <;> simp only [Bool.bne_false, Bool.bne_true, Bool.not_true, Bool.not_false,
    if_true, if_false, Bool.false_eq_true, h]
  all_goals ac_rfl

theorem gmul_02 : ∀ x : Byte, gmul 0x02 x = xtime x := by decide +kernel
theorem gmul_03 : ∀ x : Byte, gmul 0x03 x = xtime x ^^^ x := by decide +kernel
theorem gmul_09 : ∀ x : Byte, gmul 0x09 x = xtime (xtime (xtime x)) ^^^ x := by decide +kernel
theorem gmul_0B : ∀ x : Byte, gmul 0x0B x = xtime (xtime (xtime x)) ^^^ xtime x ^^^ x := by decide +kernel
theorem gmul_0D : ∀ x : Byte, gmul 0x0D x = xtime (xtime (xtime x)) ^^^ xtime (xtime x) ^^^ x := by decide +kernel
theorem gmul_0E : ∀ x : Byte, gmul 0x0E x = xtime (xtime (xtime x)) ^^^ xtime (xtime x) ^^^ xtime x := by decide +kernel

/-! ## The lanes of the tables -/

theorem T1_lanes : ∀ i : Byte, T1 i = wordOf (gmul 2 (S i)) (S i) (S i) (gmul 3 (S i)) := by decide +kernel
theorem T2_lanes : ∀ i : Byte, T2 i = wordOf (gmul 3 (S i)) (gmul 2 (S i)) (S i) (S i) := by decide +kernel
theorem T3_lanes : ∀ i : Byte, T3 i = wordOf (S i) (gmul 3 (S i)) (gmul 2 (S i)) (S i) := by decide +kernel
theorem T4_lanes : ∀ i : Byte, T4 i = wordOf (S i) (S i) (gmul 3 (S i)) (gmul 2 (S i)) := by decide +kernel

theorem U1_lanes : ∀ i : Byte, U1 i = wordOf (gmul 0x0E i) (gmul 0x09 i) (gmul 0x0D i) (gmul 0x0B i) := by decide +kernel
theorem U2_lanes : ∀ i : Byte, U2 i = wordOf (gmul 0x0B i) (gmul 0x0E i) (gmul 0x09 i) (gmul 0x0D i) := by decide +kernel
theorem U3_lanes : ∀ i : Byte, U3 i = wordOf (gmul 0x0D i) (gmul 0x0B i) (gmul 0x0E i) (gmul 0x09 i) := by decide +kernel
theorem U4_lanes : ∀ i : Byte, U4 i = wordOf (gmul 0x09 i) (gmul 0x0D i) (gmul 0x0B i) (gmul 0x0E i) := by decide +kernel

theorem T5_of_U1 : ∀ i : Byte, T5 i = U1 (SI i) := by decide +kernel
theorem T6_of_U2 : ∀ i : Byte, T6 i = U2 (SI i) := by decide +kernel
theorem T7_of_U3 : ∀ i : Byte, T7 i = U3 (SI i) := by decide +kernel
theorem T8_of_U4 : ∀ i : Byte, T8 i = U4 (SI i) := by decide +kernel

/-! ## One byte lane through MixColumn and back (R127) -/

theorem invMix_T1 : ∀ a : Byte, invMixColumnWord (T1 a) = wordOf (S a) 0 0 0 := by decide +kernel
theorem invMix_T2 : ∀ a : Byte, invMixColumnWord (T2 a) = wordOf 0 (S a) 0 0 := by decide +kernel
theorem invMix_T3 : ∀ a : Byte, invMixColumnWord (T3 a) = wordOf 0 0 (S a) 0 := by decide +kernel
theorem invMix_T4 : ∀ a : Byte, invMixColumnWord (T4 a) = wordOf 0 0 0 (S a) := by decide +kernel

/-! ## The S-boxes undo each other (R117) -/

theorem SI_S : ∀ i : Byte, SI (S i) = i := by decide +kernel
theorem S_SI : ∀ j : Byte, S (SI j) = j := by decide +kernel

end Sys2Proof.Machine
end

