-- ==== Sys2Proof/Laws/KeySchedule.lean ====
section
/-! SUPPORT. What the operations of BuildSchedule do, each said once (R163 to R170), and the recurrence of the expanded key (R172). -/

namespace Sys2Proof.Machine

open Sys2Proof.Machine.Rom

/-! ## The key words (R163) -/

theorem getTk_setTk (d : Datapath) (i j : Nat) (w : Word) :
    (d.setTk i w).getTk j = if i = j ∧ j < 8 then w else d.getTk j := wordReg_setWordReg ..

/-- `d'` differs from `d` in the register tk at most. -/
def Datapath.SameButTk (d d' : Datapath) : Prop := ∃ tk, d' = { d with tk := tk }

theorem Datapath.SameButTk.refl (d : Datapath) : d.SameButTk d := ⟨d.tk, rfl⟩

theorem Datapath.SameButTk.trans {d d' d'' : Datapath} (h : d.SameButTk d') (h' : d'.SameButTk d'') : d.SameButTk d'' := by
  obtain ⟨a, rfl⟩ := h
  obtain ⟨b, rfl⟩ := h'
  exact ⟨b, rfl⟩

theorem sameButTk_setTk (d : Datapath) (i : Nat) (w : Word) : d.SameButTk (d.setTk i w) := ⟨_, rfl⟩

/-- A loop whose turns differ in tk at most does so too. -/
theorem sameButTk_forUpTo (n : Nat) (body : Nat → Datapath → Datapath) (d : Datapath)
    (h : ∀ (i : Nat) (x : Datapath), x.SameButTk (body i x)) : d.SameButTk (forUpTo n body d) :=
  forUpTo_induction (fun _ x => d.SameButTk x) body n d (.refl d) fun i x _ hx => hx.trans (h i x)

/-- Loading the key words writes tk[0 .. nk-1] (R163). -/
theorem getTk_loadKeyWords (key : List Byte) (nk : Nat) (d : Datapath) (j : Nat) :
    (loadKeyWords key nk d).getTk j = if j < nk ∧ j < 8 then memRead4 key (4 * j) else d.getTk j := by
  induction nk with
  | zero => simp [loadKeyWords]
  | succ n ih =>
    unfold loadKeyWords at ih ⊢
    rw [forUpTo_succ, getTk_setTk, ih]
    by_cases h : n = j
    · subst h; simp
    · have : j < n + 1 ↔ j < n := by omega
      simp [h, this]

theorem sameButTk_loadKeyWords (key : List Byte) (nk : Nat) (d : Datapath) : d.SameButTk (loadKeyWords key nk d) :=
  sameButTk_forUpTo _ _ _ fun _ x => sameButTk_setTk x ..

/-! ## Placement (R164, R165) -/

section place
variable (nb nr : Nat) (w : Word) (d : Datapath)
@[simp] theorem place_tk : (place nb nr w d).tk = d.tk := rfl
@[simp] theorem place_tcnt : (place nb nr w d).tcnt = d.tcnt + 1 := rfl
@[simp] theorem place_rp : (place nb nr w d).rp = d.rp := rfl
@[simp] theorem place_t : (place nb nr w d).t = d.t := rfl
@[simp] theorem place_a : (place nb nr w d).a = d.a := rfl
@[simp] theorem place_v : (place nb nr w d).v = d.v := rfl
@[simp] theorem place_ke : (place nb nr w d).ke = setRoundKey d.ke (d.tcnt / nb) (d.tcnt % nb) w := rfl
@[simp] theorem place_kd : (place nb nr w d).kd = setRoundKey d.kd (nr - d.tcnt / nb) (d.tcnt % nb) w := rfl
end place

/-- Placing the key words leaves every register but tcnt and the two round-key arrays, and tcnt stops at TW (R165). -/
theorem placeKeyWords_regs (nb nk nr : Nat) (d : Datapath) (h : d.tcnt ≤ totalWords nb nr) :
    (placeKeyWords nb nk nr d).tk = d.tk ∧ (placeKeyWords nb nk nr d).rp = d.rp ∧ (placeKeyWords nb nk nr d).t = d.t ∧
    (placeKeyWords nb nk nr d).a = d.a ∧ (placeKeyWords nb nk nr d).v = d.v ∧
    (placeKeyWords nb nk nr d).tcnt = min (d.tcnt + nk) (totalWords nb nr) := by
  induction nk with
  | zero => exact ⟨rfl, rfl, rfl, rfl, rfl, by simpa [placeKeyWords] using h⟩
  | succ n ih =>
    unfold placeKeyWords at ih ⊢
    rw [forUpTo_succ]
    obtain ⟨h1, h2, h3, h4, h5, h6⟩ := ih
    split
    · exact ⟨h1, h2, h3, h4, h5, by rw [place_tcnt, h6]; omega⟩
    · exact ⟨h1, h2, h3, h4, h5, by omega⟩

/-- The words a schedule has placed so far: number i in Ke at row i / nb, and in Kd with its row mirrored (R164). -/
def Placed (nb nr : Nat) (W : Nat → Word) (d : Datapath) : Prop :=
  ∀ i, i < d.tcnt → roundKey d.ke (i / nb) (i % nb) = W i ∧ roundKey d.kd (nr - i / nb) (i % nb) = W i

/-- Placing one more word of the sequence keeps the ones placed (R164). -/
theorem placed_place {nb nr : Nat} {W : Nat → Word} {d : Datapath} (hnb : 0 < nb) (hnb8 : nb ≤ 8) (hnr : nr ≤ 14)
    (ht : d.tcnt < totalWords nb nr) (h : Placed nb nr W d) : Placed nb nr W (place nb nr (W d.tcnt) d) := by
  intro i hi
  rw [place_tcnt] at hi
  have hrow : ∀ k, k < totalWords nb nr → k / nb ≤ nr := fun k hk => by
    unfold totalWords at hk
    exact Nat.lt_succ_iff.mp (Nat.div_lt_of_lt_mul (by rwa [Nat.mul_comm]))
  have hcol : ∀ k, k % nb < 8 := fun k => Nat.lt_of_lt_of_le (Nat.mod_lt _ hnb) hnb8
  rw [place_ke, place_kd, roundKey_setRoundKey, roundKey_setRoundKey]
  have hr := hrow d.tcnt ht
  by_cases hc : i = d.tcnt
  · subst hc
    exact ⟨if_pos ⟨rfl, rfl, by omega, hcol _⟩, if_pos ⟨rfl, rfl, Nat.lt_of_le_of_lt (Nat.sub_le ..) (by omega), hcol _⟩⟩
  · have hlt : i < d.tcnt := by omega
    have hr' := hrow i (by omega)
    have hne : ¬ (d.tcnt / nb = i / nb ∧ d.tcnt % nb = i % nb) := fun ⟨h1, h2⟩ => hc <| by
      rw [← Nat.div_add_mod i nb, ← Nat.div_add_mod d.tcnt nb, h1, h2]
    rw [if_neg fun hx => hne ⟨hx.1, hx.2.1⟩, if_neg fun hx => hne ⟨by omega, hx.2.1⟩]
    exact h i hlt

/-- Placing the key words when they are the next nk of the sequence (R165, R169). -/
theorem placed_placeKeyWords {nb nk nr : Nat} {W : Nat → Word} {d : Datapath} (hnb : 0 < nb) (hnb8 : nb ≤ 8) (hnr : nr ≤ 14)
    (ht : d.tcnt ≤ totalWords nb nr) (h : Placed nb nr W d) (hw : ∀ j, j < nk → d.getTk j = W (d.tcnt + j)) :
    Placed nb nr W (placeKeyWords nb nk nr d) := by
  induction nk with
  | zero => exact h
  | succ n ih =>
    have ih := ih fun j hj => hw j (by omega)
    obtain ⟨h1, -, -, -, -, h6⟩ := placeKeyWords_regs nb n nr d ht
    unfold placeKeyWords at ih h1 h6 ⊢
    rw [forUpTo_succ]
    generalize forUpTo n _ d = x at ih h1 h6 ⊢
    split
    · rename_i hlt
      have htk : x.getTk n = W (d.tcnt + n) := by
        rw [Datapath.getTk, h1]; exact hw n (by omega)
      have htc : d.tcnt + n = x.tcnt := by rw [h6] at hlt ⊢; omega
      rw [htk, htc]
      exact placed_place hnb hnb8 hnr hlt ih
    · exact ih

/-! ## The expansion of the key words (R166 to R168) -/

theorem rconStep_regs (nk : Nat) (d : Datapath) :
    (rconStep nk d).rp = d.rp + 1 ∧ (rconStep nk d).tcnt = d.tcnt ∧ (rconStep nk d).ke = d.ke ∧ (rconStep nk d).kd = d.kd ∧
      (rconStep nk d).t = d.t ∧ (rconStep nk d).a = d.a ∧ (rconStep nk d).v = d.v := ⟨rfl, rfl, rfl, rfl, rfl, rfl, rfl⟩

/-- The first word of an iteration (R166). -/
theorem getTk_rconStep (nk : Nat) (d : Datapath) (j : Nat) :
    (rconStep nk d).getTk j = if j = 0
      then d.getTk 0 ^^^ subWord (rotl8w (d.getTk (nk - 1))) ^^^ ((RCON d.rp).setWidth 32 <<< 24) else d.getTk j := by
  show (d.setTk 0 _).getTk j = _
  rw [getTk_setTk]
  by_cases h : j = 0
  · subst h; simp
  · rw [if_neg fun hx => h hx.1.symm, if_neg h]

theorem sameButTk_xorChain (a b : Nat) (d : Datapath) : d.SameButTk (xorChain a b d) :=
  sameButTk_forUpTo _ _ _ fun _ x => sameButTk_setTk x ..

/-- The chain leaves the words outside a .. b, and each word in it is the old one XORed with the new one before it (R167). -/
theorem getTk_xorChain (a b : Nat) (d : Datapath) (ha : 1 ≤ a) (hb : b < 8) (j : Nat) :
    (xorChain a b d).getTk j =
      if a ≤ j ∧ j ≤ b then d.getTk j ^^^ (xorChain a b d).getTk (j - 1) else d.getTk j := by
  have key : ∀ n, n ≤ b + 1 - a → ∀ j,
      (forUpTo n (fun k x => x.setTk (a + k) (x.getTk (a + k) ^^^ x.getTk (a + k - 1))) d).getTk j =
        if a ≤ j ∧ j < a + n then d.getTk j ^^^
          (forUpTo n (fun k x => x.setTk (a + k) (x.getTk (a + k) ^^^ x.getTk (a + k - 1))) d).getTk (j - 1)
        else d.getTk j := by
    intro n
    induction n with
    | zero => intro _ j; rw [if_neg (by omega)]; rfl
    | succ n ih =>
      intro hn j
      have ih := ih (by omega)
      rw [forUpTo_succ, getTk_setTk, getTk_setTk]
      by_cases h : a + n = j
      · subst h
        rw [if_pos (by omega), if_pos (by omega), if_neg (by omega), ih (a + n), if_neg (by omega)]
      · rw [if_neg (by omega)]
        by_cases h' : a ≤ j ∧ j < a + n
        · rw [if_pos (by omega), if_neg (by omega), ih j, if_pos h']
        · rw [if_neg (by omega), ih j, if_neg h']
  have := key (b + 1 - a) (Nat.le_refl _) j
  unfold xorChain
  rw [forRange_eq, this]
  by_cases h : a ≤ j ∧ j ≤ b
  · rw [if_pos (by omega), if_pos h]
  · rw [if_neg (by omega), if_neg h]

/-- The chain of the 256-bit key: words 1..3 and 5..7 as in R167, word 4 through SubWord (R168). -/
theorem getTk_xorChain256 (d : Datapath) (j : Nat) :
    (xorChain256 d).getTk j =
      if j = 4 then d.getTk 4 ^^^ subWord ((xorChain256 d).getTk 3)
      else if 1 ≤ j ∧ j ≤ 7 then d.getTk j ^^^ (xorChain256 d).getTk (j - 1) else d.getTk j := by
  have h5 : ∀ x j, (xorChain 5 7 x).getTk j =
      if 5 ≤ j ∧ j ≤ 7 then x.getTk j ^^^ (xorChain 5 7 x).getTk (j - 1) else x.getTk j :=
    fun x j => getTk_xorChain 5 7 x (by omega) (by omega) j
  have h1 : ∀ j, (xorChain 1 3 d).getTk j =
      if 1 ≤ j ∧ j ≤ 3 then d.getTk j ^^^ (xorChain 1 3 d).getTk (j - 1) else d.getTk j :=
    fun j => getTk_xorChain 1 3 d (by omega) (by omega) j
  simp only [xorChain256]
  by_cases h : 5 ≤ j
  · rw [h5, if_neg (by omega : ¬ j = 4)]
    by_cases h' : j ≤ 7
    · rw [if_pos ⟨h, h'⟩, if_pos ⟨by omega, h'⟩, getTk_setTk, if_neg (by omega), h1, if_neg (by omega)]
    · rw [if_neg (by omega), if_neg (by omega), getTk_setTk, if_neg (by omega), h1, if_neg (by omega)]
  · have h' : ¬ (5 ≤ j ∧ j ≤ 7) := by omega
    rw [h5 _ j, if_neg h', h5 _ 3, if_neg (by omega : ¬ (5 ≤ 3 ∧ 3 ≤ 7)), getTk_setTk, getTk_setTk,
      if_neg (by omega : ¬ (4 = 3 ∧ 3 < 8))]
    by_cases h4 : j = 4
    · subst h4
      rw [if_pos ⟨rfl, by omega⟩, if_pos rfl, h1 4, if_neg (by omega)]
    · rw [if_neg (by omega), if_neg h4, h5 _ (j - 1), if_neg (by omega : ¬ (5 ≤ j - 1 ∧ j - 1 ≤ 7)), getTk_setTk,
        if_neg (by omega : ¬ (4 = j - 1 ∧ j - 1 < 8)), h1 j]
      by_cases hj : 1 ≤ j
      · rw [if_pos (by omega), if_pos (by omega)]
      · rw [if_neg (by omega), if_neg (by omega)]

theorem sameButTk_xorChain256 (d : Datapath) : d.SameButTk (xorChain256 d) :=
  (sameButTk_xorChain 1 3 d).trans ((sameButTk_setTk _ ..).trans (sameButTk_xorChain 5 7 _))

/-- The expansion writes tk and rp (R166 to R168). -/
theorem expandKeyWords_regs (nk : Nat) (d : Datapath) :
    ∃ tk, expandKeyWords nk d = { d with tk := tk, rp := d.rp + 1 } := by
  unfold expandKeyWords
  dsimp only
  split
  · obtain ⟨tk, h⟩ := sameButTk_xorChain256 (rconStep nk d)
    exact ⟨tk, h⟩
  · obtain ⟨tk, h⟩ := sameButTk_xorChain 1 (nk - 1) (rconStep nk d)
    exact ⟨tk, h⟩

/-- The new key words from the old (R166 to R168). -/
theorem getTk_expandKeyWords (nk : Nat) (d : Datapath) (hnk : nk ≤ 8) (j : Nat) (hj : j < nk) :
    (expandKeyWords nk d).getTk j = d.getTk j ^^^
      (if j = 0 then subWord (rotl8w (d.getTk (nk - 1))) ^^^ ((RCON d.rp).setWidth 32 <<< 24)
       else if nk = 8 ∧ j = 4 then subWord ((expandKeyWords nk d).getTk (j - 1))
       else (expandKeyWords nk d).getTk (j - 1)) := by
  unfold expandKeyWords
  dsimp only
  by_cases h8 : nk = 8
  · simp only [h8, if_true, true_and]
    rw [getTk_xorChain256]
    by_cases h4 : j = 4
    · subst h4
      rw [if_pos rfl, if_neg (by omega), if_pos rfl, getTk_rconStep, if_neg (by omega)]
    · rw [if_neg h4, if_neg h4]
      by_cases h0 : j = 0
      · subst h0
        rw [if_neg (by omega), if_pos rfl, getTk_rconStep, if_pos rfl, BitVec.xor_assoc]
      · rw [if_pos (by omega), if_neg h0, getTk_rconStep, if_neg h0]
  · simp only [h8, if_false, false_and]
    rw [getTk_xorChain 1 (nk - 1) _ (by omega) (by omega)]
    by_cases h0 : j = 0
    · subst h0
      rw [if_neg (by omega), if_pos rfl, getTk_rconStep, if_pos rfl, BitVec.xor_assoc]
    · rw [if_pos (by omega), if_neg h0, getTk_rconStep, if_neg h0]

/-! ## Step 5 (R170) -/

/-- A row through InvMixColumnWord. -/
theorem invMixRow (nb r : Nat) (d : Datapath) (hr : r < 15) (hnb : nb ≤ 8) :
    ∃ kd, forUpTo nb (fun c x => { x with kd := setRoundKey x.kd r c (invMixColumnWord (roundKey x.kd r c)) }) d =
        { d with kd := kd } ∧
      ∀ r' c, roundKey kd r' c =
        if r' = r ∧ c < nb then invMixColumnWord (roundKey d.kd r' c) else roundKey d.kd r' c := by
  induction nb with
  | zero => exact ⟨d.kd, rfl, fun r' c => by simp⟩
  | succ n ih =>
    obtain ⟨kd, h1, h2⟩ := ih (by omega)
    rw [forUpTo_succ, h1]
    refine ⟨_, rfl, fun r' c => ?_⟩
    dsimp only
    rw [roundKey_setRoundKey, h2, h2]
    by_cases hx : r = r' ∧ n = c
    · obtain ⟨rfl, rfl⟩ := hx
      rw [if_pos ⟨rfl, rfl, hr, by omega⟩, if_neg (by omega), if_pos (by omega)]
    · rw [if_neg fun hy => hx ⟨hy.1, hy.2.1⟩]
      have : (r' = r ∧ c < n) ↔ (r' = r ∧ c < n + 1) := by
        constructor
        · rintro ⟨h, h'⟩; exact ⟨h, by omega⟩
        · rintro ⟨h, h'⟩; exact ⟨h, by have : n ≠ c := fun e => hx ⟨h.symm, e⟩; omega⟩
      simp only [this]

/-- Step 5 maps each entry of rows 1 to nr-1 once, and writes Kd alone (R170). -/
theorem invMixKd_spec (nb nr : Nat) (d : Datapath) (hnr : nr ≤ 15) (hnb : nb ≤ 8) :
    ∃ kd, invMixKd nb nr d = { d with kd := kd } ∧
      ∀ r c, roundKey kd r c =
        if (1 ≤ r ∧ r ≤ nr - 1) ∧ c < nb then invMixColumnWord (roundKey d.kd r c) else roundKey d.kd r c := by
  have key : ∀ n, n + 1 ≤ 15 → ∃ kd,
      forUpTo n (fun k x => forUpTo nb
        (fun c x => { x with kd := setRoundKey x.kd (1 + k) c (invMixColumnWord (roundKey x.kd (1 + k) c)) }) x) d =
        { d with kd := kd } ∧
      ∀ r c, roundKey kd r c =
        if (1 ≤ r ∧ r < 1 + n) ∧ c < nb then invMixColumnWord (roundKey d.kd r c) else roundKey d.kd r c := by
    intro n
    induction n with
    | zero => exact fun _ => ⟨d.kd, rfl, fun r c => by rw [if_neg (by omega)]⟩
    | succ n ih =>
      intro hn
      obtain ⟨kd, h1, h2⟩ := ih (by omega)
      obtain ⟨kd', h3, h4⟩ := invMixRow nb (1 + n) { d with kd := kd } (by omega) hnb
      rw [forUpTo_succ, h1, h3]
      refine ⟨kd', rfl, fun r c => ?_⟩
      rw [h4, h2]
      by_cases hr : r = 1 + n
      · subst hr
        by_cases hc : c < nb
        · rw [if_pos ⟨rfl, hc⟩, if_neg (by omega), if_pos (by omega)]
        · rw [if_neg (by omega), if_neg (by omega), if_neg (by omega)]
      · rw [if_neg (by omega)]
        by_cases hc : (1 ≤ r ∧ r < 1 + n) ∧ c < nb
        · rw [if_pos hc, if_pos (by omega)]
        · rw [if_neg hc, if_neg (by omega)]
  obtain ⟨kd, h1, h2⟩ := key (nr - 1 + 1 - 1) (by omega)
  refine ⟨kd, h1, fun r c => ?_⟩
  rw [h2]
  by_cases h : (1 ≤ r ∧ r ≤ nr - 1) ∧ c < nb
  · rw [if_pos h, if_pos (by omega)]
  · rw [if_neg h, if_neg (by omega)]

/-! ## The expanded key as a sequence (R172) -/

@[simp] theorem length_keySequence (key : List Byte) (nk n : Nat) : (keySequence key nk n).length = n := by
  induction n with
  | zero => rfl
  | succ n ih => simp [keySequence, ih]

/-- Entry i of a prefix of the sequence is w[i]. -/
theorem getElem?_keySequence (key : List Byte) (nk n i : Nat) (h : i < n) :
    (keySequence key nk n)[i]? = some (keyWord key nk i) := by
  induction n with
  | zero => omega
  | succ n ih =>
    rw [keySequence, List.getElem?_append, length_keySequence]
    by_cases hi : i < n
    · rw [if_pos hi, ih hi]
    · have : i = n := by omega
      subst this
      rw [if_neg hi, Nat.sub_self]
      rfl

/-- The first nk words are the key's (R172). -/
theorem keyWord_of_lt (key : List Byte) (nk i : Nat) (h : i < nk) : keyWord key nk i = memRead4 key (4 * i) := by
  simp [keyWord, nextKeyWord, h]

/-- The recurrence of the other words (R172). -/
theorem keyWord_of_ge (key : List Byte) (nk i : Nat) (hnk : 0 < nk) (h : nk ≤ i) :
    keyWord key nk i = keyWord key nk (i - nk) ^^^
      (if i % nk = 0 then subWord (rotl8w (keyWord key nk (i - 1))) ^^^ ((RCON (i / nk - 1)).setWidth 32 <<< 24)
       else if nk = 8 ∧ i % nk = 4 then subWord (keyWord key nk (i - 1))
       else keyWord key nk (i - 1)) := by
  rw [keyWord, nextKeyWord, if_neg (by omega), getElem?_keySequence _ _ _ _ (by omega : i - 1 < i),
    getElem?_keySequence _ _ _ _ (by omega : i - nk < i)]
  rfl

end Sys2Proof.Machine
end

