-- ==== Sys2Proof/Laws/PerInstr.lean ====
section
/-! SUPPORT. Statements for all commands, one lemma a constructor. Family HeaderFields: a well-formed command's fields are what its
header holds, and the header holds the frame's operand length (R81, R82, R86). -/

namespace Sys2Proof.Laws.HeaderFields

open Sys2Proof

/-- The header of a well-formed command holds its fields and its operand length. -/
def Statement (i : Instr) : Prop :=
  i.WellFormed → i.header.opc = i.opc ∧ i.header.klen.toNat = i.klen ∧ i.header.blen.toNat = i.blen ∧
    i.header.ivlen.toNat = i.ivlen ∧ i.header.dlen.toNat = i.dlen ∧ i.header.operandLength = i.operandLength

/-- The common argument: fields that fit are kept. -/
theorem fields_kept (i : Instr) : Statement i := by
  intro h
  obtain ⟨hk, hb, hi, hd⟩ := (wellFormed_iff i).mp h
  simp [Instr.header, Header.operandLength, Instr.operandLength, Nat.mod_eq_of_lt, *]

theorem kinit (klen blen : Nat) : Statement (.kinit klen blen) := fields_kept _
theorem cinit (klen blen ivlen : Nat) : Statement (.cinit klen blen ivlen) := fields_kept _
theorem encb (dlen : Nat) : Statement (.encb dlen) := fields_kept _
theorem decb (dlen : Nat) : Statement (.decb dlen) := fields_kept _
theorem cbce (dlen : Nat) : Statement (.cbce dlen) := fields_kept _
theorem cbcd (dlen : Nat) : Statement (.cbcd dlen) := fields_kept _
theorem stat : Statement .stat := fields_kept _

end Sys2Proof.Laws.HeaderFields
end

