-- ==== Sys2Proof/Laws/Port.lean ====
section
/-! SUPPORT. What the command port gives the core, for every list of arrivals (R83, R84, R301, R306). -/

namespace Sys2Proof.Machine

@[simp] theorem arrivalsOf_nil : arrivalsOf [] = [] := rfl

@[simp] theorem arrivalsOf_cons (b : Byte) (bs : List Byte) : arrivalsOf (b :: bs) = Arrival.byte b :: arrivalsOf bs := rfl

@[simp] theorem arrivalsOf_append (x y : List Byte) : arrivalsOf (x ++ y) = arrivalsOf x ++ arrivalsOf y := by
  simp [arrivalsOf]

/-- Bytes that have arrived are taken. -/
theorem takeBytes_got (bytes : List Byte) (rest : List Arrival) :
    takeBytes (arrivalsOf bytes ++ rest) bytes.length = .got bytes rest := by
  induction bytes with
  | nil => simp [takeBytes]
  | cons b bs ih => simp [takeBytes, ih]

/-- Too few bytes: the port waits. -/
theorem takeBytes_short (bytes : List Byte) (n : Nat) (h : bytes.length < n) :
    takeBytes (arrivalsOf bytes) n = .short := by
  induction bytes generalizing n with
  | nil =>
    obtain ⟨k, rfl⟩ : ∃ k, n = k + 1 := ⟨n - 1, by simp at h; omega⟩
    simp [takeBytes]
  | cons b bs ih =>
    obtain ⟨k, rfl⟩ : ∃ k, n = k + 1 := ⟨n - 1, by simp at h; omega⟩
    simp [takeBytes, ih k (by simpa using h)]

/-- Too few bytes before a reset: they are cut off. -/
theorem takeBytes_cut (bytes : List Byte) (rest : List Arrival) (n : Nat) (h : bytes.length < n) :
    takeBytes (arrivalsOf bytes ++ Arrival.reset :: rest) n = .cut rest := by
  induction bytes generalizing n with
  | nil =>
    obtain ⟨k, rfl⟩ : ∃ k, n = k + 1 := ⟨n - 1, by simp at h; omega⟩
    simp [takeBytes]
  | cons b bs ih =>
    obtain ⟨k, rfl⟩ : ∃ k, n = k + 1 := ⟨n - 1, by simp at h; omega⟩
    simp [takeBytes, ih k (by simpa using h)]

/-- Every list of arrivals is one of the three. -/
theorem takeBytes_cases (l : List Arrival) (n : Nat) :
    (∃ bytes rest, l = arrivalsOf bytes ++ rest ∧ bytes.length = n) ∨
    (∃ bytes, l = arrivalsOf bytes ∧ bytes.length < n) ∨
    (∃ bytes rest, l = arrivalsOf bytes ++ Arrival.reset :: rest ∧ bytes.length < n) := by
  induction n generalizing l with
  | zero => exact .inl ⟨[], l, rfl, rfl⟩
  | succ n ih =>
    match l with
    | [] => exact .inr (.inl ⟨[], rfl, Nat.succ_pos n⟩)
    | .reset :: rest => exact .inr (.inr ⟨[], rest, rfl, Nat.succ_pos n⟩)
    | .byte b :: rest =>
      rcases ih rest with ⟨bs, r, rfl, rfl⟩ | ⟨bs, rfl, h⟩ | ⟨bs, r, rfl, h⟩
      · exact .inl ⟨b :: bs, r, rfl, rfl⟩
      · exact .inr (.inl ⟨b :: bs, rfl, by simpa using h⟩)
      · exact .inr (.inr ⟨b :: bs, r, rfl, by simpa using h⟩)

/-- A whole frame at the port is received, whatever its header holds (R83, R84). -/
theorem receive_frame (header operands : List Byte) (rest : List Arrival) (hh : header.length = 8)
    (ho : operands.length = (Header.ofBytes header).operandLength) :
    receive (arrivalsOf (header ++ operands) ++ rest) = .frame (Header.ofBytes header) operands rest := by
  have h1 := takeBytes_got header (arrivalsOf operands ++ rest)
  have h2 := takeBytes_got operands rest
  rw [hh] at h1
  rw [ho] at h2
  simp [receive, h1, h2]

/-- A partial frame is waited for (R306). -/
theorem receive_partial (bytes : List Byte) (h : PartialFrame bytes) : receive (arrivalsOf bytes) = .partialFrame := by
  by_cases h8 : bytes.length < 8
  · simp [receive, takeBytes_short bytes 8 h8]
  · have hp := h.resolve_left h8
    have h1 := takeBytes_got (bytes.take 8) (arrivalsOf (bytes.drop 8))
    rw [← arrivalsOf_append, List.take_append_drop, List.length_take, Nat.min_eq_left (by omega)] at h1
    have h2 := takeBytes_short (bytes.drop 8) (Header.ofBytes (bytes.take 8)).operandLength (by
      simp only [List.length_drop]; omega)
    simp [receive, h1, h2]

/-- A partial frame before a reset is forgotten (R301). -/
theorem receive_reset (bytes : List Byte) (rest : List Arrival) (h : PartialFrame bytes) :
    receive (arrivalsOf bytes ++ Arrival.reset :: rest) = .reset rest := by
  by_cases h8 : bytes.length < 8
  · simp [receive, takeBytes_cut bytes rest 8 h8]
  · have hp := h.resolve_left h8
    have h1 := takeBytes_got (bytes.take 8) (arrivalsOf (bytes.drop 8) ++ Arrival.reset :: rest)
    rw [← List.append_assoc, ← arrivalsOf_append, List.take_append_drop, List.length_take,
      Nat.min_eq_left (by omega)] at h1
    have h2 := takeBytes_cut (bytes.drop 8) rest (Header.ofBytes (bytes.take 8)).operandLength (by
      simp only [List.length_drop]; omega)
    simp [receive, h1, h2]

/-- What a step can find at the port: a whole frame, a reset after a partial frame, or a partial frame. -/
theorem port_cases (s : State) :
    (∃ header operands rest, FrameArrived s header operands rest ∧
      receive s.arrivals = .frame (Header.ofBytes header) operands rest) ∨
    (∃ bytes rest, PartialFrame bytes ∧ s.arrivals = arrivalsOf bytes ++ Arrival.reset :: rest ∧
      receive s.arrivals = .reset rest) ∨
    (∃ bytes, PartialFrame bytes ∧ s.arrivals = arrivalsOf bytes ∧ receive s.arrivals = .partialFrame) := by
  rcases takeBytes_cases s.arrivals 8 with ⟨hb, r, he, hl⟩ | ⟨bs, he, hl⟩ | ⟨bs, r, he, hl⟩
  · rcases takeBytes_cases r (Header.ofBytes hb).operandLength with ⟨ob, r', rfl, hl'⟩ | ⟨ob, rfl, hl'⟩ | ⟨ob, r', rfl, hl'⟩
    · rw [← List.append_assoc, ← arrivalsOf_append] at he
      exact .inl ⟨hb, ob, r', ⟨hl, hl', he⟩, he ▸ receive_frame hb ob r' hl hl'⟩
    · rw [← arrivalsOf_append] at he
      have hp : PartialFrame (hb ++ ob) := .inr (by simp [hl]; omega)
      exact .inr (.inr ⟨_, hp, he, he ▸ receive_partial _ hp⟩)
    · rw [← List.append_assoc, ← arrivalsOf_append] at he
      have hp : PartialFrame (hb ++ ob) := .inr (by simp [hl]; omega)
      exact .inr (.inl ⟨_, r', hp, he, he ▸ receive_reset _ r' hp⟩)
  · exact .inr (.inr ⟨bs, .inl hl, he, he ▸ receive_partial bs (.inl hl)⟩)
  · exact .inr (.inl ⟨bs, r, .inl hl, he, he ▸ receive_reset bs r (.inl hl)⟩)

/-- The decoder on the 8 bytes of a header. -/
theorem decode_of_length {header : List Byte} (h : header.length = 8) :
    decode header = decodeHeader (Header.ofBytes header) := by
  have e : header.take 8 = header := List.take_of_length_le (by omega)
  simp [decode, e, h]

/-- The step on a whole frame. -/
theorem step_of_frame {s : State} {header operands : List Byte} {rest : List Arrival}
    (h : FrameArrived s header operands rest) :
    step s = runFrame (Header.ofBytes header) (s.accept operands rest) := by
  unfold step
  rw [h.arrived, receive_frame header operands rest h.header_length h.operands_length]

/-- The step on a reset. -/
theorem step_of_reset {s : State} {rest : List Arrival} (h : receive s.arrivals = .reset rest) :
    step s = .next (s.applyReset rest) := by
  unfold step
  rw [h]

/-- The step on a partial frame. -/
theorem step_of_partial {s : State} (h : receive s.arrivals = .partialFrame) : step s = .next s := by
  unfold step
  rw [h]

end Sys2Proof.Machine
end

