-- ==== Sys2Proof/Tests/Slice0.lean ====
section
/-! SUPPORT. Tests. Expected results are those of spec/95_test_vectors.md (V<n>) and of the rules' own examples, never the model's.
The second half gives each obligation with hypotheses its witness, at the ends of its ranges. -/

-- One theorem after another: many kernel evaluations at once ask for more threads than the check's memory limit allows.
set_option Elab.async false

namespace Sys2Proof.Tests

open Sys2Proof Sys2Proof.Machine Sys2Proof.Machine.Rom

/-! ## Helpers -/

/-- The n bytes of a number, most significant first. -/
def hexBytes (n x : Nat) : List Byte := (List.range n).map fun i => BitVec.ofNat 8 (x >>> (8 * (n - 1 - i)))

/-- The bytes of the responses of a result. -/
def answers (r : Result) : List (List Byte) :=
  match r with
  | .next t => t.responses.map Response.bytes
  | _ => []

/-- A core with a schedule and an IV loaded. -/
def loaded (key : List Byte) (bs : Nat) (iv : List Byte) : State :=
  { State.reset with
    ctx := { Context.reset.loadSchedule bs key.length (scheduleFor key bs key.length Datapath.reset) with
      keyed := true, ivValid := true, iv := setStoreBytes (Vector.replicate 32 0) iv } }

/-- Context A of 95_test_vectors.md, with an operand field. -/
def contextA (inp : List Byte) : State :=
  { loaded (hexBytes 16 0x000102030405060708090a0b0c0d0e0f) 16 (hexBytes 16 0x0f0e0d0c0b0a09080706050403020100) with inp := inp }

/-- The test collaborator PKCS of 95_test_vectors.md section 6. -/
def pkcs (maxLen : Nat) : Params :=
  { padEncode := fun bs d => d ++ List.replicate (bs - d.length % bs) (BitVec.ofNat 8 (bs - d.length % bs))
    padDecode := fun bs p =>
      let n := (byteAt p (p.length - 1)).toNat
      if p.length = 0 ∨ p.length % bs ≠ 0 ∨ n < 1 ∨ bs < n ∨ (p.drop (p.length - n)).any (fun b => b.toNat != n) then .err 1
      else .ok (p.take (p.length - n))
    maxMsgLen := maxLen }

/-- The test collaborator IDPAD of V49. -/
def idpad (maxLen : Nat) : Params :=
  { padEncode := fun _ d => d, padDecode := fun _ p => .ok p, maxMsgLen := maxLen }

/-! ## Well-formedness refuses (R81) -/

theorem test_wf_refuses_klen : ¬ (Instr.kinit 256 16).WellFormed := by decide
theorem test_wf_refuses_blen : ¬ (Instr.kinit 16 256).WellFormed := by decide
theorem test_wf_refuses_ivlen : ¬ (Instr.cinit 16 16 256).WellFormed := by decide
theorem test_wf_refuses_dlen : ¬ (Instr.cbce 4294967296).WellFormed := by decide
theorem test_wf_accepts_ends : (Instr.cinit 255 255 255).WellFormed ∧ (Instr.cbcd 4294967295).WellFormed := by decide

/-! ## Decoding: words written out from R81 and R86, and the examples of R95 -/

theorem test_decode_kinit : decode [0x01, 0x10, 0x18, 0, 0, 0, 0, 0] = .instr (.kinit 16 24) := by decide
theorem test_decode_cinit : decode [0x02, 0x20, 0x18, 0x10, 0, 0, 0, 0] = .instr (.cinit 32 24 16) := by decide
theorem test_decode_encb : decode [0x03, 0, 0, 0, 0x01, 0x02, 0x03, 0x04] = .instr (.encb 0x01020304) := by decide
theorem test_decode_decb : decode [0x04, 0, 0, 0, 0xff, 0xff, 0xff, 0xff] = .instr (.decb 4294967295) := by decide
theorem test_decode_cbce : decode [0x05, 0, 0, 0, 0, 0, 0x01, 0x00] = .instr (.cbce 256) := by decide
theorem test_decode_cbcd : decode [0x06, 0, 0, 0, 0, 0x01, 0, 0] = .instr (.cbcd 65536) := by decide
theorem test_decode_stat : decode [0x07, 0, 0, 0, 0, 0, 0, 0] = .instr .stat := by decide

/-- V60, V63 to V65, and a header cut short. -/
theorem test_decode_refuses :
    decode [0x00, 0, 0, 0, 0, 0, 0, 0] = .illegal (.reservedOpcode 0) ∧
    decode [0xff, 0, 0, 0, 0, 0, 0, 0] = .illegal (.reservedOpcode 0xff) ∧
    decode [0x07, 0, 0x10, 0, 0, 0, 0, 0] = .illegal (.nonZeroField .blen) ∧
    decode [0x05, 0, 0x10, 0, 0, 0, 0, 1] = .illegal (.nonZeroField .blen) ∧
    decode [0x07, 0, 0, 0, 0, 0, 0] = .illegal .truncated := by decide

/-- spec/opcode_table.json numbers OPC at bits 63..56 and DLEN at 31..0. -/
theorem test_table_words :
    decodeTableWord 64 0x0110180000000000 = some (.kinit 16 24) ∧
    decodeTableWord 64 0x0500000000000010 = some (.cbce 16) ∧ decodeTableWord 64 0x0800000000000000 = none := by decide +kernel

/-- An opcode-table word placed at the port is what the next step runs: STAT after reset (46_control.md R260). -/
theorem test_fetch_stat :
    answers (step (State.reset.withFetchWord 64 0x0700000000000000)) = [hexBytes 12 0x000700000000000400000000] := by
  decide +kernel

/-- V61: a reserved frame is consumed with its two operand bytes and answered. -/
theorem test_step_reserved :
    (match step (State.reset.send [0x08, 0, 0, 0, 0, 0, 0, 2, 0xab, 0xcd, 0x07]) with
      | .next t => (t.responses.map Response.bytes, t.arrivals)
      | _ => ([], [])) = ([hexBytes 8 0x0108000000000000], [Arrival.byte 0x07]) := by decide +kernel

/-! ## The assembler (R95) -/

theorem test_assemble_stat : assembleLine "stat" = some [0x07, 0, 0, 0, 0, 0, 0, 0] := by decide +kernel
theorem test_assemble_encb :
    assembleLine "encb x\"00112233445566778899aabbccddeeff\"" =
      some (hexBytes 24 0x030000000000001000112233445566778899aabbccddeeff) := by decide +kernel
theorem test_assemble_frame :
    assembleLine ".frame 0x2a, 0, 0, 0, 2, x\"abcd\"" = some (hexBytes 10 0x2a00000000000002abcd) := by decide +kernel
/-- R93: a key of 255 bytes is counted, one of 256 is refused. -/
theorem test_assemble_long_key :
    (assemble (.kinit (List.replicate 255 0) none)).isSome = true ∧ assemble (.kinit (List.replicate 256 0) none) = none := by
  decide +kernel

/-! ## The tables (V10, V12, V13) -/

theorem test_field : gmul 0x57 0x83 = 0xC1 ∧ gmul 0x57 0x13 = 0xFE ∧ gmul 0 0x57 = 0 ∧ ginv 0x53 = 0xCA ∧ ginv 0xFF = 0x1C := by
  decide +kernel
theorem test_sboxes : S 0x53 = 0xED ∧ S 0xFF = 0x16 ∧ SI 0x53 = 0x50 ∧ SI 0xFF = 0x7D := by decide +kernel
theorem test_word_tables :
    T1 0xFF = 0x2c16163a ∧ T4 0x01 = 0x7c7c84f8 ∧ T5 0x01 = 0x7e416553 ∧ T8 0xFF = 0xb85742d0 ∧ U1 0xFF = 0x8d4697a3 ∧
    U3 0x01 = 0x0d0b0e09 := by decide +kernel

/-- The data of ginv(x), listed for this check (R154). -/
def ginvGrid : List (List Byte) :=
  [[0x00, 0x01, 0x8D, 0xF6, 0xCB, 0x52, 0x7B, 0xD1, 0xE8, 0x4F, 0x29, 0xC0, 0xB0, 0xE1, 0xE5, 0xC7],
   [0x74, 0xB4, 0xAA, 0x4B, 0x99, 0x2B, 0x60, 0x5F, 0x58, 0x3F, 0xFD, 0xCC, 0xFF, 0x40, 0xEE, 0xB2],
   [0x3A, 0x6E, 0x5A, 0xF1, 0x55, 0x4D, 0xA8, 0xC9, 0xC1, 0x0A, 0x98, 0x15, 0x30, 0x44, 0xA2, 0xC2],
   [0x2C, 0x45, 0x92, 0x6C, 0xF3, 0x39, 0x66, 0x42, 0xF2, 0x35, 0x20, 0x6F, 0x77, 0xBB, 0x59, 0x19],
   [0x1D, 0xFE, 0x37, 0x67, 0x2D, 0x31, 0xF5, 0x69, 0xA7, 0x64, 0xAB, 0x13, 0x54, 0x25, 0xE9, 0x09],
   [0xED, 0x5C, 0x05, 0xCA, 0x4C, 0x24, 0x87, 0xBF, 0x18, 0x3E, 0x22, 0xF0, 0x51, 0xEC, 0x61, 0x17],
   [0x16, 0x5E, 0xAF, 0xD3, 0x49, 0xA6, 0x36, 0x43, 0xF4, 0x47, 0x91, 0xDF, 0x33, 0x93, 0x21, 0x3B],
   [0x79, 0xB7, 0x97, 0x85, 0x10, 0xB5, 0xBA, 0x3C, 0xB6, 0x70, 0xD0, 0x06, 0xA1, 0xFA, 0x81, 0x82],
   [0x83, 0x7E, 0x7F, 0x80, 0x96, 0x73, 0xBE, 0x56, 0x9B, 0x9E, 0x95, 0xD9, 0xF7, 0x02, 0xB9, 0xA4],
   [0xDE, 0x6A, 0x32, 0x6D, 0xD8, 0x8A, 0x84, 0x72, 0x2A, 0x14, 0x9F, 0x88, 0xF9, 0xDC, 0x89, 0x9A],
   [0xFB, 0x7C, 0x2E, 0xC3, 0x8F, 0xB8, 0x65, 0x48, 0x26, 0xC8, 0x12, 0x4A, 0xCE, 0xE7, 0xD2, 0x62],
   [0x0C, 0xE0, 0x1F, 0xEF, 0x11, 0x75, 0x78, 0x71, 0xA5, 0x8E, 0x76, 0x3D, 0xBD, 0xBC, 0x86, 0x57],
   [0x0B, 0x28, 0x2F, 0xA3, 0xDA, 0xD4, 0xE4, 0x0F, 0xA9, 0x27, 0x53, 0x04, 0x1B, 0xFC, 0xAC, 0xE6],
   [0x7A, 0x07, 0xAE, 0x63, 0xC5, 0xDB, 0xE2, 0xEA, 0x94, 0x8B, 0xC4, 0xD5, 0x9D, 0xF8, 0x90, 0x6B],
   [0xB1, 0x0D, 0xD6, 0xEB, 0xC6, 0x0E, 0xCF, 0xAD, 0x08, 0x4E, 0xD7, 0xE3, 0x5D, 0x50, 0x1E, 0xB3],
   [0x5B, 0x23, 0x38, 0x34, 0x68, 0x46, 0x03, 0x8C, 0xDD, 0x9C, 0x7D, 0xA0, 0xCD, 0x1A, 0x41, 0x1C]]

/-- R154: the listed values of ginv. -/
theorem test_ginv_table : ∀ x : Byte, ginv x = lookupByte ginvGrid x := by decide +kernel

/-! ## The commands, one step each -/

/-- V5: two rows of the schedule of the FIPS-197 key. -/
theorem test_kinit_schedule :
    (match exec (.kinit 16 16) { State.reset with inp := hexBytes 16 0x2b7e151628aed2a6abf7158809cf4f3c } with
      | .next t => (List.range 4).map (roundKey t.ctx.ke 1) ++ (List.range 4).map (roundKey t.ctx.ke 10)
      | _ => []) =
    [0xa0fafe17, 0x88542cb1, 0x23a33939, 0x2a6c7605, 0xd014f9a8, 0xc9ee2589, 0xe13f0cc8, 0xb6630ca6] := by decide +kernel

/-- R160: with both sizes invalid, BAD_BLOCK_SIZE comes first. -/
theorem test_kinit_order :
    answers (exec (.kinit 15 20) State.reset) = [hexBytes 8 0x0201000000000000] ∧
    answers (exec (.kinit 15 16) State.reset) = [hexBytes 8 0x0301000000000000] := by decide

/-- V21: a middle decryption row for a key of 24 bytes, and what CINIT leaves of the IV. -/
theorem test_cinit_loads :
    (match exec (.cinit 24 16 16)
        { State.reset with inp := hexBytes 40 0x000102030405060708090a0b0c0d0e0f10111213141516170f0e0d0c0b0a09080706050403020100 } with
      | .next t => ((List.range 4).map (roundKey t.ctx.kd 11), storeBytes t.ctx.iv 16, t.statPayload)
      | _ => ([], [], [])) =
    ([0x1a1f181d, 0x1e1b1c19, 0x4742c7d7, 0x4949cbde], hexBytes 16 0x0f0e0d0c0b0a09080706050403020100,
      hexBytes 4 0x0310180c) := by decide +kernel

/-- P3 step 9: an IV of 8 bytes. -/
theorem test_cinit_iv_length : answers (exec (.cinit 16 16 8) State.reset) = [hexBytes 8 0x0402000000000000] := by decide

/-- V2: AES-128 of FIPS-197. -/
theorem test_encb_fips :
    answers (exec (.encb 16) (contextA (hexBytes 16 0x00112233445566778899aabbccddeeff))) =
      [hexBytes 24 0x000300000000001069c4e0d86a7b0430d8cdb78070b4c55a] := by decide +kernel

/-- P4 step 2: a block of 32 bytes under a key of 32 bytes. -/
theorem test_encb_256 :
    answers (exec (.encb 32)
      { loaded (hexBytes 32 0x000102030405060708090a0b0c0d0e0f101112131415161718191a1b1c1d1e1f) 32 [] with
        inp := hexBytes 32 0x00112233445566778899aabbccddeeff102132435465768798a9bacbdcedfe0f }) =
      [hexBytes 40 0x0003000000000020288fa9d23d00d9dc0a39b33fa92867c6488b5e0f18a6f74c072078ec815462e6] := by decide +kernel

/-- V2 backwards. -/
theorem test_decb_fips :
    answers (exec (.decb 16) (contextA (hexBytes 16 0x69c4e0d86a7b0430d8cdb78070b4c55a))) =
      [hexBytes 24 0x000400000000001000112233445566778899aabbccddeeff] := by decide +kernel

/-- R210: the length is compared with the loaded block size, 24 here. -/
theorem test_decb_length :
    answers (exec (.decb 16) { State.reset with ctx := { Context.reset with keyed := true, nb := 6 } }) =
      [hexBytes 8 0x0704000000000000] := by decide

/-- V41. -/
theorem test_cbce_two_blocks :
    answers (cbcEncryptMessage (pkcs 64) 16 (contextA (hexBytes 16 0x00112233445566778899aabbccddeeff))) =
      [hexBytes 40 0x000500000000002016628846f7334843bc7321cc796616803c8496300f84843ea35623041551f4f3] := by decide +kernel

/-- V4A: with MAX_MSG_LEN = 32, a message of 32 bytes is padded to 48 and is too long. -/
theorem test_cbce_too_long :
    answers (cbcEncryptMessage (pkcs 32) 32 (contextA (hexBytes 32 0))) = [hexBytes 8 0x0905000000000000] := by decide +kernel

/-- V44. -/
theorem test_cbcd_two_blocks :
    answers (cbcDecryptMessage (pkcs 64) 32
      (contextA (hexBytes 32 0x16628846f7334843bc7321cc796616803c8496300f84843ea35623041551f4f3))) =
      [hexBytes 24 0x000600000000001000112233445566778899aabbccddeeff] := by decide +kernel

/-- V47 and V46: the collaborator's code in DETAIL, and the length fault. -/
theorem test_cbcd_errors :
    answers (cbcDecryptMessage (pkcs 64) 16 (contextA (hexBytes 16 0x16628846f7334843bc7321cc79661680))) =
      [hexBytes 8 0x0806010000000000] ∧
    (match cbcDecryptMessage (pkcs 64) 15 (contextA (hexBytes 15 0)) with
      | .next t => (t.responses.map Response.bytes, t.faulted)
      | _ => ([], false)) = ([hexBytes 8 0xff06000000000000], true) := by decide +kernel

/-- V55: STAT under FAULTED. -/
theorem test_stat_faulted :
    answers (exec .stat { contextA [] with faulted := true }) = [hexBytes 12 0xff07000000000004_0710100a] := by decide +kernel

/-! ## Witnesses: states and operands that meet the hypotheses of each obligation, clause by clause -/

/-- A core at whose port a frame has arrived. -/
def withFrame (s : State) (header operands : List Byte) (rest : List Arrival) : State :=
  { s with arrivals := arrivalsOf (header ++ operands) ++ rest }

/-- The frame of `withFrame` has arrived. -/
theorem frame_arrived (s : State) (header operands : List Byte) (rest : List Arrival) (h8 : header.length = 8)
    (hl : operands.length = (Header.ofBytes header).operandLength) :
    FrameArrived (withFrame s header operands rest) header operands rest := ⟨h8, hl, rfl⟩

/-- A core that is keyed, with sizes and no meaningful round keys. -/
def keyed (nb : BitVec 4) (iv : Bool) : State :=
  { State.reset with ctx := { Context.reset with keyed := true, nb := nb, nk := 4, nr := 10, ivValid := iv } }

/-- KINIT with a key of one byte. -/
def kinit1 : List Byte := [0x01, 0x01, 0x10, 0, 0, 0, 0, 0]

/-- STAT. -/
def stat8 : List Byte := [0x07, 0, 0, 0, 0, 0, 0, 0]

/-- Nothing, 7 bytes, and a whole header without its one operand byte are partial frames. -/
theorem witness_ResetDiscardsPartialFrame :
    (PartialFrame [] ∧ PartialFrame (List.replicate 7 0) ∧ PartialFrame kinit1) ∧
    ∀ bytes, State.arrivals { State.reset with arrivals := arrivalsOf bytes ++ Arrival.reset :: [] } =
      arrivalsOf bytes ++ Arrival.reset :: [] :=
  ⟨⟨.inl (by decide), .inl (by decide), .inr (by decide)⟩, fun _ => rfl⟩

/-- A frame with no operand byte, and one with one. -/
theorem witness_FrameConsumedWholeAndAnsweredOnce :
    FrameArrived (withFrame State.reset stat8 [] []) stat8 [] [] ∧
    FrameArrived (withFrame State.reset kinit1 [0xaa] [.byte 7]) kinit1 [0xaa] [.byte 7] ∧
    PartialFrame kinit1 ∧ State.arrivals { State.reset with arrivals := arrivalsOf kinit1 } = arrivalsOf kinit1 :=
  ⟨frame_arrived _ _ _ _ rfl rfl, frame_arrived _ _ _ _ rfl rfl, .inr (by decide), rfl⟩

theorem witness_StepRunsDecodedCommand :
    FrameArrived (withFrame State.reset kinit1 [0xaa] []) kinit1 [0xaa] [] ∧ decode kinit1 = .instr (.kinit 1 16) :=
  ⟨frame_arrived _ _ _ _ rfl rfl, by decide⟩

/-- Each clause of the ill-formed headers, at the ends of the reserved opcodes, with a frame that has arrived. -/
theorem witness_IllegalFrameChangesNothing :
    (∀ h ∈ [[0x00, 0, 0, 0, 0, 0, 0, 0], [0x08, 0, 0, 0, 0, 0, 0, 0], [0xff, 0, 0, 0, 0, 0, 0, 0], [0x07, 0, 1, 0, 0, 0, 0, 0],
        [0x03, 0, 1, 0, 0, 0, 0, 0], [0x06, 0, 1, 0, 0, 0, 0, 0]],
      FrameArrived (withFrame State.reset h [] []) h [] [] ∧ (withFrame State.reset h [] []).faulted = false ∧
        ReservedOrIllFormed (Header.ofBytes h)) ∧
    ReservedOrIllFormed ⟨1, 16, 16, 1, 0⟩ ∧ ReservedOrIllFormed ⟨1, 16, 16, 0, 1⟩ ∧ ReservedOrIllFormed ⟨2, 16, 16, 16, 1⟩ ∧
    ReservedOrIllFormed ⟨4, 1, 0, 0, 16⟩ ∧ ReservedOrIllFormed ⟨5, 0, 0, 1, 16⟩ ∧ ReservedOrIllFormed ⟨7, 0, 0, 0, 1⟩ := by
  refine ⟨?_, ?_⟩
  · intro h hm
    fin_cases hm <;> exact ⟨frame_arrived _ _ _ _ rfl rfl, rfl, by unfold ReservedOrIllFormed; decide⟩
  · refine ⟨?_, ?_, ?_, ?_, ?_, ?_⟩ <;> (unfold ReservedOrIllFormed; decide)

/-- A header for each clause of the decode function. -/
theorem witness_DecodeFollowsOpcodeMap :
    (∀ o ∈ [(1 : Byte), 2, 3, 4, 5, 6, 7], (Header.mk o 0 0 0 0).opc = o ∧ (Header.mk o 0 0 0 0).ivlen = 0 ∧
      (Header.mk o 0 0 0 0).dlen = 0 ∧ (Header.mk o 0 0 0 0).klen = 0 ∧ (Header.mk o 0 0 0 0).blen = 0) ∧
    ReservedOrIllFormed ⟨0, 0, 0, 0, 0⟩ ∧ ReservedOrIllFormed ⟨0xff, 0, 0, 0, 0⟩ := by
  unfold ReservedOrIllFormed; decide

theorem witness_DecodeOfEncodeIsIdentity :
    (Instr.kinit 255 255).WellFormed ∧ (Instr.cinit 255 255 255).WellFormed ∧ (Instr.encb 4294967295).WellFormed ∧
    (Instr.decb 0).WellFormed ∧ (Instr.cbce 4294967295).WellFormed ∧ (Instr.cbcd 4294967295).WellFormed ∧
    Instr.stat.WellFormed := by decide

theorem witness_EncodeOfDecodeIsIdentity :
    decodeHeader ⟨2, 255, 255, 255, 0⟩ = .instr (.cinit 255 255 255) ∧
    decodeHeader ⟨6, 0, 0, 0, 4294967295⟩ = .instr (.cbcd 4294967295) := by decide

theorem witness_OperandFieldIsKeyThenIvThenData :
    (List.replicate 3 (0 : Byte)).length = (Instr.cinit 2 16 1).operandLength ∧
    ([] : List Byte).length = Instr.stat.operandLength := by decide

/-- A key of 255 bytes and one of 256, a BS of 255 and one of 256, a raw frame with its bytes and one with a byte too few; data as long
as its field can count, and one byte longer. -/
theorem witness_AssemblerWritesWholeFrames :
    ((List.replicate 255 (0 : Byte)).length ≤ 255 ∧ ¬ (List.replicate 256 (0 : Byte)).length ≤ 255 ∧
      (some 255 : Option Nat).getD 16 ≤ 255 ∧ ¬ (some 256 : Option Nat).getD 16 ≤ 255 ∧ (none : Option Nat).getD 16 ≤ 255) ∧
    assemble (.rawFrame 255 1 255 1 0 [1, 2]) = some [0xff, 1, 0xff, 1, 0, 0, 0, 0, 1, 2] ∧
    assemble (.rawFrame 255 1 255 1 0 [1]) = none ∧ assemble (.rawFrame 256 0 0 0 0 []) = none ∧
    assemble (.encb [0xaa]) = some [0x03, 0, 0, 0, 0, 0, 0, 1, 0xaa] ∧
    (List.replicate 4294967295 (0 : Byte)).length ≤ 4294967295 ∧ 4294967295 < (List.replicate 4294967296 (0 : Byte)).length :=
  ⟨by decide +kernel, by decide, by decide, by decide, by decide, Nat.le_of_eq List.length_replicate,
    Nat.lt_of_lt_of_eq (by decide) List.length_replicate.symm⟩

theorem witness_SampleLinesAssemble :
    (List.replicate 32 (1 : Byte)).length = 32 ∧ (List.replicate 32 (2 : Byte)).length = 32 := by decide

theorem witness_ReservedStatusCodesMeanNothing :
    0x0A ≤ (0x0A : Byte).toNat ∧ (0x0A : Byte).toNat ≤ 0xFE ∧ 0x0A ≤ (0xFE : Byte).toNat ∧ (0xFE : Byte).toNat ≤ 0xFE := by
  decide

/-- A STAT that has arrived after reset is answered in the next state. -/
theorem stat_step (s : State) (rest : List Arrival) :
    step (withFrame s stat8 [] rest) = .next ((s.accept [] rest).respond (if s.faulted then .faulted else .ok) 0x07 0
      (s.accept [] rest).statPayload) := by
  rw [step_of_frame (frame_arrived s stat8 [] rest rfl rfl)]
  rfl

theorem witness_EveryEmittedResponseIsWellFormed :
    ∃ t r, step (withFrame State.reset stat8 [] []) = .next t ∧ r ∈ newResponses (withFrame State.reset stat8 [] []) t :=
  ⟨_, _, stat_step _ _, by simp [newResponses, withFrame]; rfl⟩

/-- Each clause of KINIT: faulted; a block size next to a legal one; a key length next to a legal one; the largest sizes. -/
theorem witness_KinitLoadsScheduleOrFails :
    { State.reset with faulted := true }.faulted = true ∧ State.reset.faulted = false ∧ ¬ LegalSize 15 ∧ ¬ LegalSize 0 ∧
    LegalSize 16 ∧ ¬ LegalSize 33 ∧ ¬ LegalSize 255 ∧ LegalSize 24 ∧ LegalSize 32 := by decide

/-- Each clause of CINIT, with an operand field of the right length for the last. -/
theorem witness_CinitLoadsScheduleAndIvOrFails :
    { State.reset with faulted := true }.faulted = true ∧ State.reset.faulted = false ∧ ¬ LegalSize 17 ∧ LegalSize 16 ∧
    ¬ LegalSize 31 ∧ LegalSize 32 ∧ (0 : Nat) ≠ 32 ∧ (16 : Nat) ≠ 32 ∧ (32 : Nat) = 32 ∧
    State.inp { State.reset with inp := List.replicate 64 0 } = List.replicate 64 0 ∧
    (List.replicate 64 (0 : Byte)).length = 32 + 32 := by decide

/-- The sizes, a key of that length, and the last row and column, for the largest schedule (R172, R173, R175). -/
theorem witness_schedule :
    LegalSize 32 ∧ LegalSize 16 ∧ (List.replicate 16 (0 : Byte)).length = 16 ∧ 14 ≤ roundsFor 32 16 ∧ 7 < 32 / 4 ∧
    1 ≤ 1 ∧ 1 ≤ roundsFor 32 16 - 1 ∧ 13 ≤ roundsFor 32 16 - 1 := by decide

/-- Each clause of ENCB and DECB: faulted; no key; one byte short; the exact length. -/
theorem witness_EncbDecb :
    { State.reset with faulted := true }.faulted = true ∧ State.reset.faulted = false ∧ State.reset.ctx.keyed = false ∧
    (keyed 6 false).faulted = false ∧ (keyed 6 false).ctx.keyed = true ∧ 23 ≠ 4 * (keyed 6 false).ctx.nb.toNat ∧
    24 = 4 * (keyed 6 false).ctx.nb.toNat := by decide

/-- Two round-key arrays that agree in rows 0..10 and columns 0..3 and are not the same. -/
theorem witness_BlockReadsAndWritesOnlyItsOwn :
    (∀ r c : Nat, r ≤ 10 → c < 4 →
      roundKey Context.reset.ke r c = roundKey (setRoundKey (setRoundKey Context.reset.ke 11 0 1) 0 4 1) r c) ∧
    Context.reset.ke ≠ setRoundKey (setRoundKey Context.reset.ke 11 0 1) 0 4 1 := by
  refine ⟨?_, by decide +kernel⟩
  have h : ∀ r ∈ List.range 11, ∀ c ∈ List.range 4,
      roundKey Context.reset.ke r c = roundKey (setRoundKey (setRoundKey Context.reset.ke 11 0 1) 0 4 1) r c := by
    decide +kernel
  exact fun r c hr hc => h r (List.mem_range.mpr (by omega)) c (List.mem_range.mpr hc)

theorem witness_EncryptBlockIsRijndaelCipher : 4 ∈ [4, 6, 8] ∧ 6 ∈ [4, 6, 8] ∧ 8 ∈ [4, 6, 8] := by decide

theorem witness_BlockTransformsAreInverse :
    LegalSize 24 ∧ LegalSize 32 ∧ (List.replicate 32 (0 : Byte)).length = 32 ∧ (List.replicate 24 (0 : Byte)).length = 24 := by
  decide

/-- A run that loads a key: the host sends KINIT and the core steps. -/
def kinitRun : State := State.reset.send (hexBytes 24 0x0110100000000000_000102030405060708090a0b0c0d0e0f)

/-- The state after a step. -/
def after (s : State) : State :=
  match step s with
  | .next t => t
  | _ => s

/-- A step that answers a next state answers `after`. -/
theorem step_after {s : State} (h : (match step s with | .next _ => true | _ => false) = true) : step s = .next (after s) := by
  unfold after
  split at h
  · rename_i t ht
    rw [ht]
  · cases h

theorem witness_DecbUndoesEncbInEveryRun :
    Reachable (after kinitRun) ∧ (after kinitRun).ctx.keyed = true ∧
    (List.replicate 16 (0 : Byte)).length = (after kinitRun).ctx.blockBytes ∧
    (after kinitRun).faulted = false :=
  ⟨.step _ _ (.send _ _ .reset) (step_after (by decide +kernel)), by decide +kernel, by decide +kernel, by decide +kernel⟩

/-- Every state has its two successors in `DecbUndoesEncbInEveryRun`: the context kept, no fault, the operand field given. -/
theorem witness_nextOperand (t : State) (x : List Byte) :
    ∃ s : State, s.ctx = t.ctx ∧ s.faulted = false ∧ s.inp = x := ⟨{ t with faulted := false, inp := x }, rfl, rfl, rfl⟩

theorem maxMsgLen_bounds : 32 ≤ Config.maxMsgLen ∧ Config.maxMsgLen < 4294967296 := by
  have h := Config.maxMsgLenAbove32.isLt
  unfold Config.maxMsgLen
  omega

/-- Each clause of CBCE and CBCD, whatever MAX_MSG_LEN is: faulted; no key; no IV; a length above every MAX_MSG_LEN; a length
within every one, of whole blocks and not, the empty message among them. -/
theorem witness_CbceCbcd :
    { State.reset with faulted := true }.faulted = true ∧ State.reset.faulted = false ∧ State.reset.ctx.keyed = false ∧
    (keyed 4 false).ctx.keyed = true ∧ (keyed 4 false).ctx.ivValid = false ∧ (keyed 4 true).faulted = false ∧
    (keyed 4 true).ctx.keyed = true ∧ (keyed 4 true).ctx.ivValid = true ∧ Config.maxMsgLen < 4294967296 ∧
    32 ≤ Config.maxMsgLen ∧ 0 ≤ Config.maxMsgLen ∧ 17 ≤ Config.maxMsgLen ∧
    17 % (4 * (keyed 4 true).ctx.nb.toNat) ≠ 0 ∧ 32 % (4 * (keyed 4 true).ctx.nb.toNat) = 0 ∧
    0 % (4 * (keyed 4 true).ctx.nb.toNat) = 0 :=
  ⟨rfl, rfl, rfl, rfl, rfl, rfl, rfl, rfl, maxMsgLen_bounds.2, maxMsgLen_bounds.1, Nat.zero_le _,
    Nat.le_trans (by decide) maxMsgLen_bounds.1, by decide, by decide, by decide⟩

/-- At the limit: with MAX_MSG_LEN = 32 and a collaborator that adds nothing, a message of 32 bytes is encrypted and decrypted. -/
theorem witness_CbcCommandsForEveryPadding :
    (keyed 4 true).faulted = false ∧ (keyed 4 true).ctx.keyed = true ∧ (keyed 4 true).ctx.ivValid = true ∧
    32 ≤ (idpad 32).maxMsgLen ∧
    ((idpad 32).padEncode (keyed 4 true).ctx.blockBytes (List.replicate 32 0)).length ≤ (idpad 32).maxMsgLen ∧
    ((idpad 32).padEncode (keyed 4 true).ctx.blockBytes (List.replicate 32 0)).length % (keyed 4 true).ctx.blockBytes = 0 ∧
    32 % (keyed 4 true).ctx.blockBytes = 0 ∧
    (∀ q : List Byte, (idpad 32).padDecode (keyed 4 true).ctx.blockBytes q = .ok q) ∧
    (List.replicate 32 (0 : Byte)).length ≤ (idpad 32).maxMsgLen :=
  ⟨rfl, rfl, rfl, by decide, by decide, by decide, by decide, fun _ => rfl, by decide⟩

/-- A context of each legal block size, a message of two whole blocks, and the empty one (R232, R233). -/
theorem witness_chains :
    (keyed 4 true).ctx.nb.toNat ∈ [4, 6, 8] ∧ (keyed 6 true).ctx.nb.toNat ∈ [4, 6, 8] ∧ (keyed 8 true).ctx.nb.toNat ∈ [4, 6, 8] ∧
    (List.replicate 64 (0 : Byte)).length = 2 * (keyed 8 true).ctx.blockBytes ∧
    ([] : List Byte).length = 0 * (keyed 8 true).ctx.blockBytes := by decide

/-- Two messages of three blocks of 16 that differ in block 0, and a block that is neither 0 nor 1. -/
theorem witness_CorruptBlockSpoilsOnlyItsNeighbour :
    (List.replicate 48 (0 : Byte)).length = 3 * (keyed 4 true).ctx.blockBytes ∧
    (1 :: List.replicate 47 (0 : Byte)).length = 3 * (keyed 4 true).ctx.blockBytes ∧
    (∀ k : Nat, k < 3 → k ≠ 0 → messageBlock (keyed 4 true).ctx.blockBytes (List.replicate 48 0) k =
      messageBlock (keyed 4 true).ctx.blockBytes (1 :: List.replicate 47 0) k) ∧
    2 < 3 ∧ 2 ≠ 0 ∧ 2 ≠ 0 + 1 := by
  refine ⟨by decide, by decide, ?_, by decide, by decide, by decide⟩
  intro k hk h0
  have : k = 1 ∨ k = 2 := by omega
  rcases this with rfl | rfl <;> decide

/-- The context of `loaded` holds a schedule of BuildSchedule. -/
theorem loaded_scheduled (key : List Byte) (bs : Nat) (iv : List Byte) (hb : LegalSize bs) (hk : LegalSize key.length) :
    (loaded key bs iv).ctx.Scheduled :=
  ⟨bs, key.length, key, Datapath.reset, hb, hk, rfl, rfl, rfl, rfl, rfl, rfl⟩

/-- PKCS keeps PAD-MULT. -/
theorem pkcs_padMult (n : Nat) : (pkcs n).PadMult := by
  intro bs x hb
  have hpos : 0 < bs := by simp at hb; omega
  have h := Nat.mod_lt x.length hpos
  simp only [pkcs, List.length_append, List.length_replicate]
  rw [show x.length + (bs - x.length % bs) = bs * (x.length / bs + 1) by
    have := Nat.div_add_mod x.length bs
    rw [Nat.mul_succ]
    omega, Nat.mul_mod_right]

/-- PKCS keeps PAD-INV. -/
theorem pkcs_padInv (n : Nat) : (pkcs n).PadInv := by
  intro bs x hb
  have hm := pkcs_padMult n bs x hb
  have hpos : 0 < bs ∧ bs ≤ 32 := by simp at hb; omega
  have h := Nat.mod_lt x.length hpos.1
  simp only [pkcs] at hm ⊢
  generalize hk : bs - x.length % bs = k at hm ⊢
  have hk1 : 1 ≤ k ∧ k ≤ bs := by omega
  have hlast : (byteAt (x ++ List.replicate k (BitVec.ofNat 8 k)) ((x ++ List.replicate k (BitVec.ofNat 8 k)).length - 1)).toNat =
      k := by
    have e : (x ++ List.replicate k (BitVec.ofNat 8 k)).length - 1 = x.length + (k - 1) := by simp; omega
    rw [e, byteAt, List.getElem?_append_right (by omega), Nat.add_sub_cancel_left]
    simp only [List.getElem?_replicate, show k - 1 < k by omega, if_true, Option.getD_some, BitVec.toNat_ofNat]
    omega
  rw [hlast, if_neg]
  · simp
  · have hlen : (x ++ List.replicate k (BitVec.ofNat 8 k)).length = x.length + k := by simp
    rw [hlen] at hm ⊢
    rw [Nat.add_sub_cancel, List.drop_left]
    have hany : (List.replicate k (BitVec.ofNat 8 k)).any (fun b => b.toNat != k) = false := by
      rw [List.any_eq_false]
      intro b hb'
      rw [List.eq_of_mem_replicate hb']
      simp
      omega
    rw [hany, hm]
    simp
    omega

/-- PKCS with MAX_MSG_LEN = 32, and a message of 16 bytes that CBCE answers with OK. -/
theorem witness_CbcRoundTripGivesMessageBack :
    ∃ (t : State) (c : List Byte), (pkcs 32).PadMult ∧ (pkcs 32).PadInv ∧ (contextA (List.replicate 16 0)).ctx.Scheduled ∧
      ((pkcs 32).padEncode (contextA (List.replicate 16 0)).ctx.blockBytes (List.replicate 16 0)).length ≤ (pkcs 32).maxMsgLen ∧
      cbcEncryptMessage (pkcs 32) (List.replicate 16 (0 : Byte)).length (contextA (List.replicate 16 0)) = .next t ∧
      t.responses = (contextA (List.replicate 16 0)).responses ++ [response .ok 0x05 0 c] := by
  let s := contextA (List.replicate 16 0)
  let q := (pkcs 32).padEncode s.ctx.blockBytes (dataOperand s.inp 0 0 16)
  have e : cbcEncryptMessage (pkcs 32) 16 s =
      .next (State.respond { s with dp := (cbcEncryptChain s.ctx q s.dp).2 } .ok 0x05 0 (cbcEncryptChain s.ctx q s.dp).1) := by
    rw [cbcEncryptMessage, unlessFaulted_of_clear rfl, if_neg (by decide +kernel), if_neg (by decide +kernel),
      if_neg (by decide +kernel)]
    dsimp only
    rw [if_neg (by decide +kernel), if_neg (by decide +kernel)]
    rfl
  exact ⟨_, _, pkcs_padMult 32, pkcs_padInv 32, loaded_scheduled _ _ _ (.inl rfl) (.inl rfl), by decide +kernel, e, rfl⟩

/-- Two cores with the same context and operand field and different datapaths answer CBCE. -/
theorem witness_SameMessageSameCiphertext :
    ∃ (s s' t t' : State), s.ctx = s'.ctx ∧ s.faulted = s'.faulted ∧ s.inp = s'.inp ∧ s ≠ s' ∧ s.ctx.ivValid = true ∧
      exec (.cbce 16) s = .next t ∧ exec (.cbce 16) s' = .next t' := by
  obtain ⟨t, ht⟩ := exec_answers (.cbce 16) (keyed 4 true)
  obtain ⟨t', ht'⟩ := exec_answers (.cbce 16) { keyed 4 true with dp := { Datapath.reset with rp := 1 } }
  exact ⟨keyed 4 true, { keyed 4 true with dp := { Datapath.reset with rp := 1 } }, t, t', rfl, rfl, rfl, by decide, rfl, ht,
    ht'⟩

/-- Two cores that differ in their keys only. -/
theorem witness_StatHidesKeyMaterial :
    ∃ (s s' t t' : State), s.faulted = s'.faulted ∧ s.ctx.keyed = s'.ctx.keyed ∧ s.ctx.ivValid = s'.ctx.ivValid ∧
      (s.ctx.keyed = true → s.ctx.nb = s'.ctx.nb ∧ s.ctx.nk = s'.ctx.nk ∧ s.ctx.nr = s'.ctx.nr) ∧ s.ctx.ke ≠ s'.ctx.ke ∧
      exec .stat s = .next t ∧ exec .stat s' = .next t' :=
  ⟨keyed 4 true, { keyed 4 true with ctx := { (keyed 4 true).ctx with ke := setRoundKey Context.reset.ke 0 0 1 } }, _, _,
    rfl, rfl, rfl, fun _ => ⟨rfl, rfl, rfl⟩, by decide +kernel, execStat_eq _, execStat_eq _⟩

/-- CBCD of one byte. -/
def cbcd1 : List Byte := [0x06, 0, 0, 0, 0, 0, 0, 1]

/-- The length fault, whatever MAX_MSG_LEN is: CBCD of one byte. -/
theorem cbcd_one_byte (s : State) (hf : s.faulted = false) (hk : s.ctx.keyed = true) (hi : s.ctx.ivValid = true)
    (hn : s.ctx.nb = 4) : exec (.cbcd 1) s = .next (s.setFaulted.respond .faulted 0x06 0 []) := by
  have hm : ¬ 1 > Config.params.maxMsgLen := Nat.not_lt.mpr (Nat.le_trans (by decide) maxMsgLen_bounds.1)
  have hb : (1 : Nat) % s.ctx.blockBytes ≠ 0 := by rw [Context.blockBytes, hn]; decide
  simp only [exec, execCbcd, cbcDecryptMessage, unlessFaulted_of_clear hf, hk, hi]
  rw [if_neg (by decide), if_neg (by decide), if_neg hm, if_pos hb]
  rfl

/-- The step on a CBCD of one byte that has arrived. -/
theorem cbcd_one_byte_step {s : State} {rest : List Arrival} (ha : FrameArrived s cbcd1 [0] rest) (hf : s.faulted = false)
    (hk : s.ctx.keyed = true) (hi : s.ctx.ivValid = true) (hn : s.ctx.nb = 4) :
    step s = .next ((s.accept [0] rest).setFaulted.respond .faulted 0x06 0 []) := by
  rw [step_of_frame ha]
  exact cbcd_one_byte _ hf hk hi hn

theorem witness_FaultedSetOnlyByCbcdLength :
    ∃ s t : State, step s = .next t ∧ s.faulted = false ∧ t.faulted = true :=
  ⟨_, _, cbcd_one_byte_step (frame_arrived (keyed 4 true) cbcd1 [0] [] rfl rfl) rfl rfl rfl rfl, rfl, rfl⟩

theorem witness_OnlyResetClearsFaulted :
    ∃ s t : State, step s = .next t ∧ s.faulted = true ∧ t.faulted = false :=
  ⟨{ keyed 4 true with faulted := true, arrivals := [.byte 1, .reset] }, _, step_of_reset rfl, rfl, rfl⟩

/-- A faulted core, a STAT and another frame. -/
theorem witness_FaultedCoreAnswersOnlyFaulted :
    FrameArrived (withFrame { keyed 4 true with faulted := true } stat8 [] []) stat8 [] [] ∧ decode stat8 = .instr .stat ∧
    FrameArrived (withFrame { keyed 4 true with faulted := true } kinit1 [1] []) kinit1 [1] [] ∧
    decode kinit1 ≠ .instr .stat :=
  ⟨frame_arrived _ _ _ _ rfl rfl, by decide, frame_arrived _ _ _ _ rfl rfl, by decide⟩

/-- A KINIT with a key of one byte (BAD_KEY_LENGTH), and the two exceptions: the length fault of CBCD, and STAT under FAULTED. -/
theorem witness_ErrorsLeaveContextUnchanged :
    (∃ (s t : State) (r : Response), FrameArrived s kinit1 [1] [] ∧ step s = .next t ∧ t.responses = s.responses ++ [r] ∧
      r.statusCode ≠ Status.code .ok ∧ t.faulted = s.faulted ∧ r.out = []) ∧
    (∃ (s t : State) (r : Response), FrameArrived s cbcd1 [0] [] ∧ step s = .next t ∧ t.responses = s.responses ++ [r] ∧
      r.statusCode ≠ Status.code .ok ∧ s.faulted = false ∧ t.faulted = true ∧ decode cbcd1 = .instr (.cbcd 1)) ∧
    (∃ (s t : State) (r : Response), FrameArrived s stat8 [] [] ∧ step s = .next t ∧ t.responses = s.responses ++ [r] ∧
      r.statusCode ≠ Status.code .ok ∧ s.faulted = true ∧ r.out ≠ [] ∧ decode stat8 = .instr .stat) := by
  have e : step (withFrame State.reset kinit1 [1] []) =
      .next (((withFrame State.reset kinit1 [1] []).accept [1] []).respond .badKeyLength 0x01 0 []) := by
    rw [step_of_frame (frame_arrived _ _ _ _ rfl rfl)]
    rfl
  exact ⟨⟨_, _, _, frame_arrived _ _ _ _ rfl rfl, e, rfl, by decide, rfl, rfl⟩,
    ⟨_, _, _, frame_arrived (keyed 4 true) cbcd1 [0] [] rfl rfl,
      cbcd_one_byte_step (frame_arrived (keyed 4 true) cbcd1 [0] [] rfl rfl) rfl rfl rfl rfl, rfl, by decide, rfl, rfl, by decide⟩,
    ⟨_, _, _, frame_arrived { keyed 4 true with faulted := true } stat8 [] [] rfl rfl, stat_step _ [], rfl, by decide, rfl,
      by decide, by decide⟩⟩

/-! ### Runs (R297) -/

theorem reset_justReset : State.reset.JustReset := ⟨State.reset, [], rfl⟩

/-- The host sends CINIT and a CBCD of one byte, and after them asserts reset. -/
def faultyRun : State :=
  ((State.reset.send (hexBytes 40 0x0210101000000000_000102030405060708090a0b0c0d0e0f_000102030405060708090a0b0c0d0e0f)).send
    (cbcd1 ++ [0])).assertReset

/-- The state of `faultyRun` after its two commands: the run has ended, in the fault state, with the next reset at the port. -/
def faultyEnd : State := ((after faultyRun).accept [0] [.reset]).setFaulted.respond .faulted 0x06 0 []

theorem step_faultyRun : step (after faultyRun) = .next faultyEnd :=
  cbcd_one_byte_step ⟨rfl, rfl, by decide +kernel⟩ (by decide +kernel) (by decide +kernel) (by decide +kernel) (by decide +kernel)

/-- A run that sees FAULTED and ends with only the next reset pending; the run after it, which is fault-free though the list still
holds the earlier FAULTED; and a run that waits inside a frame, which has not ended. -/
theorem witness_RunIsObservedFromItsReset :
    (Run State.reset faultyEnd ∧ faultyEnd.RunEnded ∧ faultyEnd.faulted = true ∧ ¬ FaultFree State.reset faultyEnd ∧
      ¬ faultyEnd.RunEndedClean) ∧
    (∃ u, step faultyEnd = .next u ∧ Run u u ∧ FaultFree u u ∧ u.RunEndedClean ∧
      ∃ r ∈ u.responses, r.statusCode = Status.code .faulted) ∧
    (Run State.reset (State.reset.send [7]) ∧ ¬ (State.reset.send [7]).RunEnded) := by
  refine ⟨⟨?_, .inr ⟨[], rfl⟩, rfl, ?_, fun h => by cases h.2⟩, ⟨faultyEnd.applyReset [], step_of_reset rfl, ?_, ?_, ?_, ?_⟩, ?_, ?_⟩
  · refine .step _ _ (.step _ _ (.assertReset _ (.send _ _ (.send _ _ (.start reset_justReset)))) (fun rest h => ?_)
      (step_after (by decide +kernel))) (fun rest h => ?_) step_faultyRun
    · have e : (match receive faultyRun.arrivals with | .reset _ => true | _ => false) = false := by decide +kernel
      rw [show receive faultyRun.arrivals = .reset rest from h] at e
      cases e
    · have e : (match receive (after faultyRun).arrivals with | .reset _ => true | _ => false) = false := by decide +kernel
      rw [show receive (after faultyRun).arrivals = .reset rest from h] at e
      cases e
  · intro h
    exact absurd rfl (h (response .faulted 0x06 0 []) (by decide +kernel))
  · exact .start ⟨_, _, rfl⟩
  · intro r hr
    simp [observation, newResponses] at hr
  · exact ⟨.inl rfl, rfl⟩
  · exact ⟨response .faulted 0x06 0 [], by decide +kernel, rfl⟩
  · exact .send _ _ (.start reset_justReset)
  · rintro (h | ⟨rest, h⟩) <;> cases h

/-- Every command answers a next state from every state. -/
theorem witness_CommandsChangeOnlyTheirOwnState (i : Instr) : ∃ t, exec i State.reset = .next t := exec_answers i _

/-- A KINIT that changes a round key. -/
theorem witness_RoundKeysChangeOnlyBySuccessfulInit :
    ∃ t : State, exec (.kinit 16 16) { State.reset with inp := List.replicate 16 1 } = .next t ∧
      t.ctx.ke ≠ State.reset.ctx.ke := by
  obtain ⟨t, ht⟩ := exec_answers (.kinit 16 16) { State.reset with inp := List.replicate 16 1 }
  refine ⟨t, ht, fun h => ?_⟩
  have key : (match exec (.kinit 16 16) { State.reset with inp := List.replicate 16 1 } with
    | .next t => roundKey t.ctx.ke 0 0
    | _ => 0) = 0x01010101 := by decide +kernel
  rw [ht] at key
  dsimp only at key
  rw [h] at key
  revert key
  decide +kernel

/-- The reset state with a frame at its port has the invariant and a next state. -/
theorem witness_EveryStepKeepsCoreInvariant :
    ∃ s t : State, s.Inv ∧ step s = .next t ∧ s ≠ t :=
  ⟨withFrame State.reset stat8 [] [], _, ⟨fun h => (by cases h), fun h => (by cases h), Nat.zero_le _, Nat.zero_le _, rfl⟩,
    stat_step _ _, fun h => (by cases congrArg State.arrivals h)⟩

/-- Two cores that agree and are not the same: they differ in an unspecified round key and in a datapath register. -/
theorem witness_UnspecifiedStateIsUnobservable :
    ∃ s s' : State, s.Agree s' ∧ s.ctx ≠ s'.ctx ∧ s.dp ≠ s'.dp :=
  ⟨State.reset, { State.reset with ctx := { Context.reset with nr := 3 }, dp := { Datapath.reset with rp := 1 } },
    ⟨rfl, rfl, by constructor <;> first | rfl | exact fun h => (by cases h)⟩, by decide, by decide⟩

/-- Indexes at the ends of the table statements' ranges, and an operand that is not zero. -/
theorem witness_tables : (1 : Byte) ≠ 0 ∧ (255 : Byte) ≠ 0 ∧ (0 : Byte) ≠ 255 ∧ (254 : Byte) ≠ 255 ∧ 28 ∈ List.range 29 := by
  decide

end Sys2Proof.Tests
end

section
/-! PROOFS. The scope of the core (00_scope.md): bytes and words, the nine size pairs, the round constants of a schedule, and CBC
under any padding collaborator. -/

namespace Sys2Proof.Machine

/-! ## Bytes and words (R25, R26, R62, R63) -/

/-- Byte k of a word as a field of its bits (R25). -/
theorem byteK_eq_extractLsb' (w : Word) (k : Nat) : byteK w k = w.extractLsb' (24 - 8 * k) 8 := by
  ext i hi
  simp [byteK, BitVec.getElem_setWidth, BitVec.getElem_extractLsb']

/-- The bytes of an assembled word (R26, R63). -/
theorem bytesOfWord_wordOf (b0 b1 b2 b3 : Byte) : bytesOfWord (wordOf b0 b1 b2 b3) = [b0, b1, b2, b3] := by
  rw [bytesOfWord, byteK_wordOf_0, byteK_wordOf_1, byteK_wordOf_2, byteK_wordOf_3]

/-- A rotation by one byte moves every byte one place up, byte 0 to the end (R26). -/
theorem byteK_rotateLeft_8 (w : Word) :
    byteK (w.rotateLeft 8) 0 = byteK w 1 ∧ byteK (w.rotateLeft 8) 1 = byteK w 2 ∧ byteK (w.rotateLeft 8) 2 = byteK w 3 ∧
      byteK (w.rotateLeft 8) 3 = byteK w 0 := by
  simp only [byteK_eq_extractLsb']
  refine ⟨?_, ?_, ?_, ?_⟩ <;>
    (ext i hi
     simp only [BitVec.getElem_extractLsb', BitVec.getLsbD_rotateLeft]
     interval_cases i <;> simp)

/-- `rotl8w` is the rotation of the whole word (R26). -/
theorem rotl8w_eq_rotateLeft (w : Word) : rotl8w w = w.rotateLeft 8 := by
  obtain ⟨h0, h1, h2, h3⟩ := byteK_rotl8w w
  obtain ⟨g0, g1, g2, g3⟩ := byteK_rotateLeft_8 w
  exact word_ext (h0.trans g0.symm) (h1.trans g1.symm) (h2.trans g2.symm) (h3.trans g3.symm)

/-- Settles O56: reading back a word and writing back four bytes both give what was there; each byte is its field of bits. -/
theorem wordsAreBigEndianBytes : Obligations.WordsAreBigEndianBytes :=
  ⟨fun w => memRead4_bytesOfWord w [], fun b0 b1 b2 b3 => bytesOfWord_wordOf b0 b1 b2 b3,
    fun w => ⟨byteK_eq_extractLsb' w 0, byteK_eq_extractLsb' w 1, byteK_eq_extractLsb' w 2, byteK_eq_extractLsb' w 3⟩,
    rotl8w_eq_rotateLeft⟩

/-! ## Round counts (R14, R15) -/

/-- The round count is six more than the words of the larger of block and key (R15). -/
theorem roundsFor_eq_max {bs ks : Nat} (hb : LegalSize bs) (hk : LegalSize ks) : roundsFor bs ks = max (bs / 4) (ks / 4) + 6 := by
  rcases hb with rfl | rfl | rfl <;> rcases hk with rfl | rfl | rfl <;> rfl

/-- Settles O22: the nine entries by evaluation, the formula by its own lemma. -/
theorem roundCountOfNineSizePairs : Obligations.RoundCountOfNineSizePairs :=
  ⟨rfl, rfl, rfl, rfl, rfl, rfl, rfl, rfl, rfl, fun _ _ => roundsFor_eq_max⟩

/-! ## The counters of the key schedule (R164 to R169, R174) -/

/-- The counters tcnt and rp before each turn of the expansion loop: rp + 1 runs of nk words are placed, cut off at TW, and the last
of these runs was needed. -/
def ExpansionCounts (nb nk nr : Nat) (d : Datapath) : Prop :=
  d.tcnt = min (nk * (d.rp + 1)) (totalWords nb nr) ∧ nk * d.rp < totalWords nb nr

/-- No word past TW is placed (R165). -/
theorem ExpansionCounts.tcnt_le {nb nk nr : Nat} {d : Datapath} (h : ExpansionCounts nb nk nr d) :
    d.tcnt ≤ totalWords nb nr := h.1 ▸ Nat.min_le_right ..

/-- One turn uses one round constant and places the next run of words, at least one (R166, R169). -/
theorem expansionCounts_turn {nb nk nr : Nat} {d : Datapath} (hnk : 0 < nk) (h : ExpansionCounts nb nk nr d)
    (hlt : d.tcnt < totalWords nb nr) :
    ExpansionCounts nb nk nr (placeKeyWords nb nk nr (expandKeyWords nk d)) ∧
      d.tcnt < (placeKeyWords nb nk nr (expandKeyWords nk d)).tcnt := by
  obtain ⟨hcount, -⟩ := h
  obtain ⟨tk, hd⟩ := expandKeyWords_regs nk d
  obtain ⟨-, hrp, -, -, -, htcnt⟩ := placeKeyWords_regs nb nk nr { d with tk := tk, rp := d.rp + 1 } hlt.le
  rw [hd, ExpansionCounts, hrp, htcnt, Nat.mul_succ nk (d.rp + 1)]
  dsimp only
  omega

/-- With fuel for the words still to place, the loop ends with all TW words placed (R169). -/
theorem expandLoop_counts {nb nk nr : Nat} (hnk : 0 < nk) (fuel : Nat) (d : Datapath) (h : ExpansionCounts nb nk nr d)
    (hfuel : totalWords nb nr ≤ d.tcnt + fuel) :
    ExpansionCounts nb nk nr (expandLoop nb nk nr fuel d) ∧ (expandLoop nb nk nr fuel d).tcnt = totalWords nb nr := by
  induction fuel generalizing d with
  | zero => exact ⟨h, Nat.le_antisymm h.tcnt_le hfuel⟩
  | succ fuel ih =>
    rw [expandLoop]
    split
    next hlt =>
      obtain ⟨hturn, hmore⟩ := expansionCounts_turn hnk h hlt
      exact ih _ hturn (by omega)
    next hge => exact ⟨h, Nat.le_antisymm h.tcnt_le (Nat.not_lt.mp hge)⟩

/-- Step 5 leaves the counters (R170). -/
theorem invMixKd_counters {nb nr : Nat} (d : Datapath) (hnr : nr ≤ 15) (hnb : nb ≤ 8) :
    (invMixKd nb nr d).tcnt = d.tcnt ∧ (invMixKd nb nr d).rp = d.rp := by
  obtain ⟨kd, hd, -⟩ := invMixKd_spec nb nr d hnr hnb
  rw [hd]
  exact ⟨rfl, rfl⟩

/-- The counters that BuildSchedule leaves (R162, R169, R174). -/
theorem buildSchedule_counts (key : List Byte) {nb nk nr : Nat} (d : Datapath) (hnb : 0 < nb) (hnb8 : nb ≤ 8) (hnk : 0 < nk)
    (hnr : nr ≤ 15) :
    ExpansionCounts nb nk nr (buildSchedule key nb nk nr d) ∧
      (buildSchedule key nb nk nr d).tcnt = totalWords nb nr := by
  have hpos : 0 < totalWords nb nr := Nat.mul_pos (Nat.succ_pos nr) hnb
  obtain ⟨-, -, -, -, -, htcnt⟩ := placeKeyWords_regs nb nk nr { loadKeyWords key nk d with tcnt := 0 } (Nat.zero_le _)
  rw [buildSchedule, ExpansionCounts, (invMixKd_counters _ hnr hnb8).1, (invMixKd_counters _ hnr hnb8).2]
  exact expandLoop_counts hnk _ _ ⟨by simpa using htcnt, hpos⟩ (Nat.le_add_left ..)

/-- Once all words are placed, rp is the number of whole or cut runs of nk words after the key's own (R174). -/
theorem rp_eq_of_counts {nb nk nr : Nat} {d : Datapath} (h : ExpansionCounts nb nk nr d)
    (hend : d.tcnt = totalWords nb nr) : d.rp = (totalWords nb nr - nk + (nk - 1)) / nk := by
  obtain ⟨hcount, hneed⟩ := h
  have hlast : totalWords nb nr ≤ nk * (d.rp + 1) := by omega
  rw [Nat.mul_succ] at hlast
  refine (Nat.div_eq_of_lt_le ?_ ?_).symm
  · rw [Nat.mul_comm]
    omega
  · rw [Nat.mul_comm, Nat.mul_succ]
    omega

/-- The number of round constants of each of the nine size pairs (R22, R174). -/
theorem roundConstants_le_29 {bs ks : Nat} (hb : LegalSize bs) (hk : LegalSize ks) :
    (totalWords (bs / 4) (roundsFor bs ks) - ks / 4 + (ks / 4 - 1)) / (ks / 4) ≤ 29 ∧
    ((totalWords (bs / 4) (roundsFor bs ks) - ks / 4 + (ks / 4 - 1)) / (ks / 4) = 29 ↔ bs = 32 ∧ ks = 16) := by
  rcases hb with rfl | rfl | rfl <;> rcases hk with rfl | rfl | rfl <;> decide

/-- The sizes in words and the round count of a legal pair are in the range of the schedule's storage (R12 to R14, R17). -/
theorem legalSizes_bounds {bs ks : Nat} (hb : LegalSize bs) (hk : LegalSize ks) :
    0 < bs / 4 ∧ bs / 4 ≤ 8 ∧ 0 < ks / 4 ∧ roundsFor bs ks ≤ 15 := by
  rw [roundsFor_eq_max hb hk]
  omega

/-- Settles O21: the loop's invariant on tcnt and rp, read at its end, and the bound for each pair. -/
theorem scheduleUsesAtMost29RoundConstants : Obligations.ScheduleUsesAtMost29RoundConstants := by
  intro bs ks key d hb hk
  obtain ⟨hnb, hnb8, hnk, hnr⟩ := legalSizes_bounds hb hk
  obtain ⟨hcounts, hend⟩ := buildSchedule_counts key d hnb hnb8 hnk hnr
  have hrp := rp_eq_of_counts hcounts hend
  have hbound := roundConstants_le_29 hb hk
  rw [← hrp] at hbound
  exact ⟨hend, hrp, hbound⟩

/-! ## CBC under any padding collaborator (R20, R23, R240, R244) -/

section ready
variable {p : Params} {dlen : Nat} {s : State} (hf : s.faulted = false) (hk : s.ctx.keyed = true)
  (hi : s.ctx.ivValid = true) (hl : dlen ≤ p.maxMsgLen)
include hf hk hi hl

/-- CBCE of a padded message of whole blocks that is not too long (R240). -/
theorem cbcEncryptMessage_ok {padded : List Byte}
    (hp : padded = p.padEncode s.ctx.blockBytes (dataOperand s.inp 0 0 dlen)) (hlen : padded.length ≤ p.maxMsgLen)
    (hblocks : padded.length % s.ctx.blockBytes = 0) :
    cbcEncryptMessage p dlen s = .next (State.respond { s with dp := (cbcEncryptChain s.ctx padded s.dp).2 } .ok 0x05 0
      (cbcEncryptChain s.ctx padded s.dp).1) := by
  subst hp
  simp [cbcEncryptMessage, unlessFaulted_of_clear hf, hk, hi, hl.not_gt, hlen.not_gt, hblocks, finish]

/-- CBCD of whole blocks whose decryption PAD.decode accepts with bytes that are not too many (R244). -/
theorem cbcDecryptMessage_ok {m : List Byte} (hblocks : dlen % s.ctx.blockBytes = 0)
    (hm : p.padDecode s.ctx.blockBytes (cbcDecryptChain s.ctx (dataOperand s.inp 0 0 dlen) s.dp).1 = .ok m)
    (hlen : m.length ≤ p.maxMsgLen) :
    cbcDecryptMessage p dlen s = .next (State.respond
      { s with dp := (cbcDecryptChain s.ctx (dataOperand s.inp 0 0 dlen) s.dp).2 } .ok 0x06 0 m) := by
  simp [cbcDecryptMessage, unlessFaulted_of_clear hf, hk, hi, hl.not_gt, hblocks, hm, hlen.not_gt, finish]

end ready

/-- Settles O33: `exec` runs the two meanings by definition, and each passes all its checks. -/
theorem cbcCommandsForEveryPadding : Obligations.CbcCommandsForEveryPadding :=
  ⟨fun _ _ => ⟨rfl, rfl⟩, fun _ _ _ hf hk hi hl =>
    ⟨fun _ => cbcEncryptMessage_ok hf hk hi hl, fun _ => cbcDecryptMessage_ok hf hk hi hl⟩⟩

end Sys2Proof.Machine
end

section
/-! PROOFS. What each command leaves unchanged, and the invariant of the core (10_state.md). -/

namespace Sys2Proof.Machine

/-! ## Which datapath registers each operation writes (R45) -/

/-- The registers that the key schedule works in (R162 to R171). -/
def Datapath.scheduleRegs (d : Datapath) : Vector Word 8 × Nat × Nat × RoundKeys × RoundKeys :=
  (d.tk, d.tcnt, d.rp, d.ke, d.kd)

/-- The registers that the block transforms and the CBC chains work in (R195, R215, R232, R233). -/
def Datapath.cipherRegs (d : Datapath) : Vector Word 8 × Vector Word 8 × Vector Byte 32 := (d.t, d.a, d.v)

/-- What every turn of a loop keeps, the loop keeps. -/
theorem forUpTo_keeps {α β : Type} (f : α → β) (n : Nat) (body : Nat → α → α) (s : α)
    (h : ∀ i x, f (body i x) = f x) : f (forUpTo n body s) = f s :=
  forUpTo_induction (fun _ x => f x = f s) body n s rfl fun i x _ hx => (h i x).trans hx

theorem cipherRegs_placeKeyWords (nb nk nr : Nat) (d : Datapath) :
    (placeKeyWords nb nk nr d).cipherRegs = d.cipherRegs :=
  forUpTo_keeps _ _ _ _ fun _ x => by split <;> rfl

theorem cipherRegs_expandKeyWords (nk : Nat) (d : Datapath) : (expandKeyWords nk d).cipherRegs = d.cipherRegs := by
  obtain ⟨tk, h⟩ := expandKeyWords_regs nk d
  rw [h]
  rfl

theorem cipherRegs_expandLoop (nb nk nr fuel : Nat) (d : Datapath) :
    (expandLoop nb nk nr fuel d).cipherRegs = d.cipherRegs := by
  induction fuel generalizing d with
  | zero => rfl
  | succ fuel ih =>
    rw [expandLoop]
    split
    · rw [ih, cipherRegs_placeKeyWords, cipherRegs_expandKeyWords]
    · rfl

theorem cipherRegs_invMixKd (nb nr : Nat) (d : Datapath) : (invMixKd nb nr d).cipherRegs = d.cipherRegs :=
  forUpTo_keeps _ _ _ _ fun _ x => forUpTo_keeps Datapath.cipherRegs _ _ x fun _ _ => rfl

/-- BuildSchedule leaves t, a and v (R162 to R171). -/
theorem cipherRegs_scheduleFor (key : List Byte) (blen klen : Nat) (d : Datapath) :
    (scheduleFor key blen klen d).cipherRegs = d.cipherRegs := by
  obtain ⟨tk, hload⟩ := sameButTk_loadKeyWords key (klen / 4) d
  calc (scheduleFor key blen klen d).cipherRegs
      = (placeKeyWords (blen / 4) (klen / 4) (roundsFor blen klen)
          { loadKeyWords key (klen / 4) d with tcnt := 0 }).cipherRegs :=
        (cipherRegs_invMixKd ..).trans (cipherRegs_expandLoop ..)
    _ = (loadKeyWords key (klen / 4) d).cipherRegs := cipherRegs_placeKeyWords ..
    _ = d.cipherRegs := by rw [hload]; rfl

theorem Datapath.SameButTA.scheduleRegs {d d' : Datapath} (h : d.SameButTA d') : d'.scheduleRegs = d.scheduleRegs := by
  obtain ⟨t, a, rfl⟩ := h
  rfl

theorem Datapath.SameButTA.v {d d' : Datapath} (h : d.SameButTA d') : d'.v = d.v := by
  obtain ⟨t, a, rfl⟩ := h
  rfl

/-- EncryptBlock writes t and a alone (R195). -/
theorem sameButTA_encryptBlock (nb nr : Nat) (ke : RoundKeys) (block : List Byte) (d : Datapath) :
    d.SameButTA (encryptBlock nb nr ke block d).2 :=
  (sameButTA_addInitialKey nb ke block d).trans <| sameButTA_forUpTo _ _ _ fun _ x => sameButTA_encryptRound nb ke _ x

/-- DecryptBlock writes t and a alone (R215). -/
theorem sameButTA_decryptBlock (nb nr : Nat) (kd : RoundKeys) (block : List Byte) (d : Datapath) :
    d.SameButTA (decryptBlock nb nr kd block d).2 :=
  (sameButTA_addInitialKey nb kd block d).trans <| sameButTA_forUpTo _ _ _ fun _ x => sameButTA_decryptRound nb kd _ x

theorem scheduleRegs_setV (d : Datapath) (x : List Byte) : (d.setV x).scheduleRegs = d.scheduleRegs := by
  simp [Datapath.scheduleRegs]

/-- The chained encryption leaves the registers of the key schedule (R232). -/
theorem scheduleRegs_cbcEncryptChain (c : Context) (p : List Byte) (d : Datapath) :
    (cbcEncryptChain c p d).2.scheduleRegs = d.scheduleRegs :=
  (forUpTo_keeps (fun acc : List Byte × Datapath => acc.2.scheduleRegs) _ (cbcEncryptTurn c p) _ fun _ _ =>
    (scheduleRegs_setV ..).trans (sameButTA_encryptBlock ..).scheduleRegs).trans (scheduleRegs_setV ..)

/-- The chained decryption leaves the registers of the key schedule (R233). -/
theorem scheduleRegs_cbcDecryptChain (c : Context) (m : List Byte) (d : Datapath) :
    (cbcDecryptChain c m d).2.scheduleRegs = d.scheduleRegs :=
  (forUpTo_keeps (fun acc : List Byte × Datapath => acc.2.scheduleRegs) _ (cbcDecryptTurn c m) _ fun _ _ =>
    (scheduleRegs_setV ..).trans (sameButTA_decryptBlock ..).scheduleRegs).trans (scheduleRegs_setV ..)

/-! ## How a command can end -/

/-- How a command can end: with an error and nothing done; with a schedule, or a schedule and an IV, loaded; with a block or a whole
message transformed; with the length fault; or with the status reported. The datapath is said by what it keeps. -/
inductive Ends (s : State) : Instr → State → Prop
  | error (i : Instr) (st : Status) : Ends s i (s.respond st i.opc 0 [])
  | keyed (klen blen : Nat) (hb : LegalSize blen) (hk : LegalSize klen) :
      Ends s (.kinit klen blen) (State.respond { s with
        ctx := (s.ctx.loadSchedule blen klen (scheduleFor (keyOperand s.inp klen) blen klen s.dp)).markKeyed
        dp := scheduleFor (keyOperand s.inp klen) blen klen s.dp } .ok 0x01 0 [])
  | keyedWithIv (klen blen ivlen : Nat) (hb : LegalSize blen) (hk : LegalSize klen) :
      Ends s (.cinit klen blen ivlen) (State.respond { s with
        ctx := ((s.ctx.loadSchedule blen klen (scheduleFor (keyOperand s.inp klen) blen klen s.dp)).loadIv
          (ivOperand s.inp klen ivlen) s.freeCount).markKeyedWithIv
        dp := scheduleFor (keyOperand s.inp klen) blen klen s.dp } .ok 0x02 0 [])
  | block (i : Instr) (d : Datapath) (out : List Byte) (hi : (∃ n, i = .encb n) ∨ ∃ n, i = .decb n)
      (hd : s.dp.SameButTA d) : Ends s i (State.respond { s with dp := d } .ok i.opc 0 out)
  | message (i : Instr) (d : Datapath) (st : Status) (detail : Byte) (out : List Byte)
      (hi : (∃ n, i = .cbce n) ∨ ∃ n, i = .cbcd n) (hd : d.scheduleRegs = s.dp.scheduleRegs) :
      Ends s i (State.respond { s with dp := d } st i.opc detail out)
  | lengthFault (n : Nat) : Ends s (.cbcd n) (s.setFaulted.respond .faulted 0x06 0 [])
  | status (st : Status) : Ends s .stat (s.respond st 0x07 0 s.statPayload)

/-- Every command ends in one of these ways. -/
theorem exec_ends {i : Instr} {s t : State} (h : exec i s = .next t) : Ends s i t := by
  cases i with
  | kinit klen blen =>
    rcases execKinit_cases h with ⟨st, -, rfl⟩ | ⟨-, hb, hk, rfl⟩
    · exact .error _ st
    · exact .keyed klen blen hb hk
  | cinit klen blen ivlen =>
    rcases execCinit_cases h with ⟨st, -, rfl⟩ | ⟨-, hb, hk, -, rfl⟩
    · exact .error _ st
    · exact .keyedWithIv klen blen ivlen hb hk
  | encb n =>
    rcases execEncb_cases h with ⟨st, -, rfl⟩ | ⟨-, -, -, rfl⟩
    · exact .error _ st
    · exact .block (.encb n) _ _ (.inl ⟨n, rfl⟩) (sameButTA_encryptBlock ..)
  | decb n =>
    rcases execDecb_cases h with ⟨st, -, rfl⟩ | ⟨-, -, -, rfl⟩
    · exact .error _ st
    · exact .block (.decb n) _ _ (.inr ⟨n, rfl⟩) (sameButTA_decryptBlock ..)
  | cbce n =>
    rcases cbcEncryptMessage_cases h with ⟨st, -, rfl⟩ | ⟨-, -, -, -, padded, -, -, -, rfl⟩
    · exact .error _ st
    · exact .message (.cbce n) _ _ _ _ (.inl ⟨n, rfl⟩) (scheduleRegs_cbcEncryptChain ..)
  | cbcd n =>
    rcases cbcDecryptMessage_cases h with ⟨st, -, rfl⟩ | ⟨-, -, -, -, ⟨-, rfl⟩ | ⟨-, s1, q, rfl, -, hend⟩⟩
    · exact .error _ st
    · exact .lengthFault n
    · have hmessage := fun st detail out => Ends.message (s := s) (.cbcd n) _ st detail out (.inr ⟨n, rfl⟩)
        (scheduleRegs_cbcDecryptChain s.ctx (dataOperand s.inp 0 0 n) s.dp)
      rcases hend with ⟨e, -, rfl⟩ | ⟨m, -, -, rfl⟩ | ⟨m, -, -, rfl⟩
      · exact hmessage ..
      · exact hmessage ..
      · exact hmessage ..
  | stat =>
    rw [exec, execStat_eq] at h
    cases h
    exact .status _

/-! ## The invariant (R34, R36, R42, R45, R60) -/

/-- Settles O47: no flag is set, no frame is held, and the counters are 0. -/
theorem coreInvariantAtReset : Obligations.CoreInvariantAtReset where
  keyed_scheduled h := by cases h
  iv_keyed h := by cases h
  tcnt_le := Nat.zero_le _
  rp_le := Nat.zero_le _
  no_operands := rfl

/-- A reset gives the invariant, whatever held before it. -/
theorem applyReset_inv (s : State) (rest : List Arrival) : (s.applyReset rest).Inv where
  keyed_scheduled h := by cases h
  iv_keyed h := by cases h
  tcnt_le := Nat.zero_le _
  rp_le := Nat.zero_le _
  no_operands := rfl

/-- The counters of a finished schedule are in range (R45, R174). -/
theorem scheduleFor_counters (key : List Byte) {bs ks : Nat} (d : Datapath) (hb : LegalSize bs) (hk : LegalSize ks) :
    (scheduleFor key bs ks d).tcnt ≤ 120 ∧ (scheduleFor key bs ks d).rp ≤ 29 := by
  obtain ⟨htcnt, -, hrp, -⟩ := scheduleUsesAtMost29RoundConstants bs ks key d hb hk
  refine ⟨?_, hrp⟩
  rw [htcnt]
  rcases hb with rfl | rfl | rfl <;> rcases hk with rfl | rfl | rfl <;> decide

/-- What BuildSchedule made of a key operand is a schedule of a legal key (R34). -/
theorem loadSchedule_scheduled (c : Context) {inp : List Byte} {bs ks : Nat} (d : Datapath) (hb : LegalSize bs)
    (hk : LegalSize ks) (hlen : ks ≤ inp.length) :
    (c.loadSchedule bs ks (scheduleFor (keyOperand inp ks) bs ks d)).Scheduled :=
  ⟨bs, ks, keyOperand inp ks, d, hb, hk, by simpa [keyOperand] using hlen, rfl, rfl, rfl, rfl, rfl⟩

/-- The invariant of a command under way, whose operand field is still there. -/
def State.InvUnderWay (s : State) : Prop := State.Inv { s with inp := [] }

/-- A command starts under the invariant, with the free counters in range (R45). -/
theorem accept_invUnderWay {s : State} (h : s.Inv) (operands : List Byte) (rest : List Arrival) :
    (s.accept operands rest).InvUnderWay where
  keyed_scheduled := h.keyed_scheduled
  iv_keyed := h.iv_keyed
  tcnt_le := Nat.lt_succ_iff.mp (Config.freeTcnt s.freeCount).isLt
  rp_le := Nat.lt_succ_iff.mp (Config.freeRp s.freeCount).isLt
  no_operands := rfl

/-- A response that leaves the context and the counters ends a command under the invariant. -/
theorem respond_inv {s : State} (h : s.InvUnderWay) {d : Datapath} (hd : d.scheduleRegs = s.dp.scheduleRegs) (f : Bool)
    (st : Status) (opc detail : Byte) (out : List Byte) :
    (State.respond { s with dp := d, faulted := f } st opc detail out).Inv := by
  simp only [Datapath.scheduleRegs, Prod.mk.injEq] at hd
  obtain ⟨-, htcnt, hrp, -⟩ := hd
  exact ⟨h.keyed_scheduled, h.iv_keyed, htcnt ▸ h.tcnt_le, hrp ▸ h.rp_le, rfl⟩

/-- Every command whose key is in its operand field keeps the invariant. -/
theorem exec_inv {i : Instr} {s t : State} (h : exec i s = .next t) (hs : s.InvUnderWay) (hlen : i.klen ≤ s.inp.length) :
    t.Inv := by
  cases exec_ends h with
  | error _ st => exact respond_inv hs rfl ..
  | keyed klen blen hb hk =>
    obtain ⟨htcnt, hrp⟩ := scheduleFor_counters (keyOperand s.inp klen) s.dp hb hk
    exact ⟨fun _ => loadSchedule_scheduled s.ctx s.dp hb hk hlen, fun h => (by cases h), htcnt, hrp, rfl⟩
  | keyedWithIv klen blen ivlen hb hk =>
    obtain ⟨htcnt, hrp⟩ := scheduleFor_counters (keyOperand s.inp klen) s.dp hb hk
    exact ⟨fun _ => loadSchedule_scheduled s.ctx s.dp hb hk hlen, fun _ => rfl, htcnt, hrp, rfl⟩
  | block _ d out _ hd => exact respond_inv hs hd.scheduleRegs ..
  | message _ d st detail out _ hd => exact respond_inv hs hd ..
  | lengthFault n => exact respond_inv hs rfl ..
  | status st => exact respond_inv hs rfl ..

/-- A decoded command has the operand length of its header (R82, R86). -/
theorem operandLength_of_decodeHeader {h : Header} {i : Instr} (hd : decodeHeader h = .instr i) :
    i.operandLength = h.operandLength := by
  unfold decodeHeader at hd
  split at hd
  case h_8 => cases hd
  all_goals
    obtain ⟨rfl, hzero⟩ := checked_instr hd
    simp only [firstNonZero_cons] at hzero
    simp [Instr.operandLength, Instr.klen, Instr.ivlen, Instr.dlen, Header.operandLength, hzero]

/-- Settles O48: a frame's command keeps the invariant by its cases, an illegal frame changes nothing but the transient registers, a
reset gives the invariant, and waiting keeps it. -/
theorem everyStepKeepsCoreInvariant : Obligations.EveryStepKeepsCoreInvariant := by
  intro s t hs hstep
  rcases port_cases s with ⟨header, operands, rest, hframe, -⟩ | ⟨-, rest, -, -, hreset⟩ | ⟨-, -, -, hwait⟩
  · have hready := accept_invUnderWay hs operands rest
    rw [step_of_frame hframe, runFrame] at hstep
    split at hstep
    next i hdecode =>
      refine exec_inv hstep hready ?_
      rw [accept_inp, hframe.operands_length, ← operandLength_of_decodeHeader hdecode, Instr.operandLength]
      omega
    next =>
      obtain ⟨st, -, heq⟩ := illegalCommand_cases (s.accept operands rest) (Header.ofBytes header).opc
      cases heq.symm.trans hstep
      exact respond_inv hready rfl ..
  · cases (step_of_reset hreset).symm.trans hstep
    exact applyReset_inv s rest
  · cases (step_of_partial hwait).symm.trans hstep
    exact hs

/-! ## What a command leaves unchanged (R38 to R41, R43) -/

section ends
variable {s t : State} {i : Instr} (h : Ends s i t)
include h

/-- No command takes what is still to arrive; each ends in one response, with no operand field. -/
theorem Ends.port : t.arrivals = s.arrivals ∧ t.freeCount = s.freeCount ∧ t.inp = [] ∧
    ∃ r, t.responses = s.responses ++ [r] := by
  cases h <;> exact ⟨rfl, rfl, rfl, _, rfl⟩

/-- Only KINIT and CINIT write the context and the registers of the key schedule. -/
theorem Ends.ctx_and_scheduleRegs (hk : ∀ k b, i ≠ .kinit k b) (hc : ∀ k b v, i ≠ .cinit k b v) :
    t.ctx = s.ctx ∧ t.dp.scheduleRegs = s.dp.scheduleRegs := by
  cases h with
  | keyed klen blen => exact absurd rfl (hk klen blen)
  | keyedWithIv klen blen ivlen => exact absurd rfl (hc klen blen ivlen)
  | block _ d out _ hd => exact ⟨rfl, hd.scheduleRegs⟩
  | message _ d st detail out _ hd => exact ⟨rfl, hd⟩
  | error | lengthFault | status => exact ⟨rfl, rfl⟩

/-- Only CINIT writes the IV store (R40). -/
theorem Ends.iv (hc : ∀ k b v, i ≠ .cinit k b v) : t.ctx.iv = s.ctx.iv := by
  cases h with
  | keyedWithIv klen blen ivlen => exact absurd rfl (hc klen blen ivlen)
  | error | keyed | block | message | lengthFault | status => rfl

/-- Only CBCD writes the fault flag (R41). -/
theorem Ends.faulted (hd : ∀ d, i ≠ .cbcd d) : t.faulted = s.faulted := by
  cases h with
  | lengthFault n => exact absurd rfl (hd n)
  | error | keyed | keyedWithIv | block | message | status => rfl

/-- Only CBCE and CBCD write the chaining value. -/
theorem Ends.v (hd : ∀ d, i ≠ .cbcd d) (he : ∀ d, i ≠ .cbce d) : t.dp.v = s.dp.v := by
  have hinit := fun key blen klen => congrArg (fun r => r.2.2) (cipherRegs_scheduleFor key blen klen s.dp)
  cases h with
  | keyed klen blen => exact hinit ..
  | keyedWithIv klen blen ivlen => exact hinit ..
  | block _ d out _ hd => exact hd.v
  | message _ d st detail out hi =>
    obtain ⟨n, rfl⟩ | ⟨n, rfl⟩ := hi
    · exact absurd rfl (he n)
    · exact absurd rfl (hd n)
  | error | lengthFault | status => rfl

/-- KINIT, CINIT and STAT leave the cipher state. -/
theorem Ends.t_and_a (hi : (∃ k b, i = .kinit k b) ∨ (∃ k b v, i = .cinit k b v) ∨ i = .stat) :
    t.dp.t = s.dp.t ∧ t.dp.a = s.dp.a := by
  have hinit : ∀ key blen klen, (scheduleFor key blen klen s.dp).t = s.dp.t ∧ (scheduleFor key blen klen s.dp).a = s.dp.a := by
    intro key blen klen
    have hregs := cipherRegs_scheduleFor key blen klen s.dp
    simp only [Datapath.cipherRegs, Prod.mk.injEq] at hregs
    exact ⟨hregs.1, hregs.2.1⟩
  cases h with
  | keyed klen blen => exact hinit ..
  | keyedWithIv klen blen ivlen => exact hinit ..
  | block _ d out hb => rcases hb with ⟨n, rfl⟩ | ⟨n, rfl⟩ <;> simp at hi
  | message _ d st detail out hm => rcases hm with ⟨n, rfl⟩ | ⟨n, rfl⟩ <;> simp at hi
  | error | lengthFault | status => exact ⟨rfl, rfl⟩

/-- A command that changes a round key is a KINIT or a CINIT that succeeded (R38). -/
theorem Ends.init_of_roundKeys_ne (hne : t.ctx.ke ≠ s.ctx.ke ∨ t.ctx.kd ≠ s.ctx.kd) :
    ((∃ k b, i = .kinit k b) ∨ (∃ k b v, i = .cinit k b v)) ∧ t.responses = s.responses ++ [response .ok i.opc 0 []] := by
  cases h with
  | keyed klen blen => exact ⟨.inl ⟨klen, blen, rfl⟩, rfl⟩
  | keyedWithIv klen blen ivlen => exact ⟨.inr ⟨klen, blen, ivlen, rfl⟩, rfl⟩
  | error | block | message | lengthFault | status => simp at hne

/-- The fault flag stays set (R41). -/
theorem Ends.faulted_of_faulted (hf : s.faulted = true) : t.faulted = true := by
  cases h with
  | lengthFault => rfl
  | error | keyed | keyedWithIv | block | message | status => exact hf

end ends

/-- STAT leaves the datapath (R260). -/
theorem execStat_dp {s t : State} (h : exec .stat s = .next t) : t.dp = s.dp := by
  rw [exec, execStat_eq] at h
  cases h
  rfl

/-- Settles O45: each clause is read off from how the command ends. -/
theorem commandsChangeOnlyTheirOwnState : Obligations.CommandsChangeOnlyTheirOwnState := by
  intro i s t h
  have hends := exec_ends h
  obtain ⟨harrivals, hcount, hinp, hresponse⟩ := hends.port
  refine ⟨harrivals, hcount, hinp, hresponse, fun hk hc => ?_, hends.iv, hends.faulted, hends.v, hends.t_and_a, ?_⟩
  · obtain ⟨hctx, hregs⟩ := hends.ctx_and_scheduleRegs hk hc
    simp only [Datapath.scheduleRegs, Prod.mk.injEq] at hregs
    exact ⟨hctx, hregs⟩
  · rintro rfl
    exact execStat_dp h

/-- Settles O46: no other end of a command touches the round keys. -/
theorem roundKeysChangeOnlyBySuccessfulInit : Obligations.RoundKeysChangeOnlyBySuccessfulInit :=
  fun _ _ _ h => (exec_ends h).init_of_roundKeys_ne

/-! ## Reset and the step (R31, R47, R61, R84, R300) -/

/-- Settles O1: the reset state has these values by its definition. -/
theorem resetLeavesFlagsClearAndIdle : Obligations.ResetLeavesFlagsClearAndIdle :=
  ⟨rfl, rfl, rfl, rfl, rfl, rfl, rfl⟩

/-- A frame taken is answered, by its command or as an illegal one (R278). -/
theorem runFrame_answers (h : Header) (s : State) : ∃ t, runFrame h s = .next t := by
  unfold runFrame
  split
  · exact exec_answers ..
  · obtain ⟨st, -, heq⟩ := illegalCommand_cases s h.opc
    exact ⟨_, heq⟩

/-- Settles O4: a whole frame is answered, a reset is taken, and with a partial frame the core waits. -/
theorem everyStepAnswersNextState : Obligations.EveryStepAnswersNextState := by
  intro s
  rcases port_cases s with ⟨header, operands, rest, hframe, -⟩ | ⟨-, rest, -, -, hreset⟩ | ⟨-, -, -, hwait⟩
  · rw [step_of_frame hframe]
    exact runFrame_answers ..
  · exact ⟨_, step_of_reset hreset⟩
  · exact ⟨_, step_of_partial hwait⟩

/-- The step on a whole frame that decodes to a command (R31). -/
theorem step_of_command {s : State} {header operands : List Byte} {rest : List Arrival} {i : Instr}
    (hframe : FrameArrived s header operands rest) (hdecode : decode header = .instr i) :
    step s = exec i (s.accept operands rest) := by
  rw [decode_of_length hframe.header_length] at hdecode
  rw [step_of_frame hframe, runFrame, hdecode]

/-- Settles O5: the step is the command's, on the accepted state, whose fields are given by its definition. -/
theorem stepRunsDecodedCommand : Obligations.StepRunsDecodedCommand :=
  fun _ _ _ _ _ hframe hdecode => ⟨step_of_command hframe hdecode, rfl, rfl, rfl, rfl, rfl, rfl, rfl⟩

end Sys2Proof.Machine
end

section
/-! PROOFS. What a run has shown of the core (R297): the responses since its reset, and the fault flag they give away. -/

namespace Sys2Proof.Machine

/-- A frame taken ends in one response, whose status is FAULTED just when the core is in its fault state after it, and which it does
not leave (R41, R280). -/
theorem runFrame_one_response {h : Header} {s t : State} (hrun : runFrame h s = .next t) :
    ∃ st opc detail out, t.responses = s.responses ++ [response st opc detail out] ∧ (st = .faulted ↔ t.faulted = true) ∧
      (s.faulted = true → t.faulted = true) := by
  unfold runFrame at hrun
  split at hrun
  · obtain ⟨st, opc, detail, out, hresponses, hst⟩ := exec_one_response hrun
    exact ⟨st, opc, detail, out, hresponses, hst, (exec_ends hrun).faulted_of_faulted⟩
  · obtain ⟨st, opc, detail, out, hresponses, hst⟩ := illegalCommand_one_response hrun
    obtain ⟨st', -, heq⟩ := illegalCommand_cases s h.opc
    cases heq.symm.trans hrun
    exact ⟨st, opc, detail, out, hresponses, hst, id⟩

/-- What the responses from `s` on show at `t`: they come after those before `s`, and one of them has status FAULTED just when the
core is in its fault state. -/
structure Shows (s t : State) : Prop where
  responses : t.responses = s.responses ++ observation s t
  faulted : t.faulted = true ↔ ¬ FaultFree s t

/-- Nothing has been shown where the run begins. -/
theorem shows_self {s : State} (h : s.faulted = false) : Shows s s where
  responses := by simp [observation, newResponses]
  faulted := by simp [h, FaultFree, observation, newResponses]

/-- The observation depends on the responses alone. -/
theorem observation_congr (s : State) {t u : State} (h : u.responses = t.responses) : observation s u = observation s t := by
  simp only [observation, newResponses, h]

/-- What changes neither the responses nor the fault flag shows nothing new. -/
theorem Shows.of_same {s t u : State} (h : Shows s t) (hr : u.responses = t.responses) (hf : u.faulted = t.faulted) :
    Shows s u where
  responses := by rw [observation_congr s hr, hr, ← h.responses]
  faulted := by rw [hf, h.faulted, FaultFree, FaultFree, observation_congr s hr]

/-- A response is added to the observation. -/
theorem Shows.observation_append {s t u : State} (h : Shows s t) {r : Response} (hr : u.responses = t.responses ++ [r]) :
    observation s u = observation s t ++ [r] := by
  rw [observation, newResponses, hr, h.responses, List.append_assoc, List.drop_left]

/-- A response with status FAULTED just when the core is in its fault state after it keeps what is shown. -/
theorem Shows.answer {s t u : State} (h : Shows s t) {st : Status} {opc detail : Byte} {out : List Byte}
    (hr : u.responses = t.responses ++ [response st opc detail out]) (hst : st = .faulted ↔ u.faulted = true)
    (hstay : t.faulted = true → u.faulted = true) : Shows s u := by
  have hobs := h.observation_append hr
  refine ⟨by rw [hobs, hr, h.responses, List.append_assoc], ?_⟩
  have hlast : FaultFree s u ↔ FaultFree s t ∧ st ≠ .faulted := by
    have hcode : st.code = Status.code .faulted ↔ st = .faulted := ⟨statusCode_injective, congrArg _⟩
    simp [FaultFree, hobs, or_imp, forall_and, hcode]
  rw [hlast, not_and_or, not_not, hst, ← h.faulted]
  exact ⟨.inr, fun hor => hor.elim hstay id⟩

/-- A run begins with no flag set (R47, R297). -/
theorem justReset_flags {s : State} (h : s.JustReset) : s.faulted = false ∧ s.ctx.keyed = false ∧ s.ctx.ivValid = false := by
  obtain ⟨before, rest, rfl⟩ := h
  exact ⟨rfl, rfl, rfl⟩

/-- A run begins right after a reset. -/
theorem Run.justReset {s t : State} (h : Run s t) : s.JustReset := by
  induction h with
  | start h => exact h
  | send _ _ _ ih => exact ih
  | assertReset _ _ ih => exact ih
  | step _ _ _ _ _ ih => exact ih

/-- The responses of a run show whether the core is in its fault state (R297). -/
theorem Run.shows {s t : State} (h : Run s t) : Shows s t := by
  induction h with
  | start h => exact shows_self (justReset_flags h).1
  | send t bytes _ ih => exact ih.of_same rfl rfl
  | assertReset t _ ih => exact ih.of_same rfl rfl
  | step t u _ hnoreset hstep ih =>
    rcases port_cases t with ⟨header, operands, rest, hframe, -⟩ | ⟨-, rest, -, -, hreset⟩ | ⟨-, -, -, hwait⟩
    · rw [step_of_frame hframe] at hstep
      obtain ⟨st, opc, detail, out, hresponses, hst, hstay⟩ := runFrame_one_response hstep
      exact ih.answer hresponses hst hstay
    · exact absurd hreset (hnoreset rest)
    · cases (step_of_partial hwait).symm.trans hstep
      exact ih

/-- A step that answers nothing adds nothing to what is observed from its state on. -/
theorem observation_of_same {t u : State} (h : u.responses = t.responses) : observation t u = [] := by
  simp [observation, newResponses, h]

/-- Settles O58: the responses show the fault flag at every point of the run, by induction on it; an ended run waits, or takes the
next reset, which begins a run. -/
theorem runIsObservedFromItsReset : Obligations.RunIsObservedFromItsReset := by
  refine ⟨fun s t hrun => ?_, fun s t u hrun hended hstep => ?_⟩
  · obtain ⟨hfaulted, hkeyed, hiv⟩ := justReset_flags hrun.justReset
    exact ⟨hfaulted, hkeyed, hiv, hrun.shows.responses, hrun.shows.faulted⟩
  · obtain hnone | ⟨rest, hnext⟩ := hended
    · have hwait : receive t.arrivals = .partialFrame := by rw [hnone]; rfl
      cases (step_of_partial hwait).symm.trans hstep
      exact ⟨observation_of_same rfl, .inl hrun⟩
    · have hreset : receive t.arrivals = .reset rest := by rw [hnext]; rfl
      cases (step_of_reset hreset).symm.trans hstep
      exact ⟨observation_of_same rfl, .inr ⟨⟨t, rest, rfl⟩, observation_of_same rfl⟩⟩

end Sys2Proof.Machine
end

section
/-! PROOFS. The round keys that BuildSchedule leaves are the expanded key (R172, R173, R175). -/

namespace Sys2Proof.Machine

/-- The expansion loop before each turn: its counters, the words placed so far, and in tk the last nk words of the sequence W. -/
structure Expanding (nb nk nr : Nat) (W : Nat → Word) (d : Datapath) : Prop where
  counts : ExpansionCounts nb nk nr d
  placed : Placed nb nr W d
  keyWords : ∀ j, j < nk → d.getTk j = W (nk * d.rp + j)

/-- One turn of the expansion computes the next nk words of the sequence (R166 to R168, R172). -/
theorem getTk_expandKeyWords_keyWord {key : List Byte} {nk : Nat} {d : Datapath} (hnk : 0 < nk) (hnk8 : nk ≤ 8)
    (h : ∀ j, j < nk → d.getTk j = keyWord key nk (nk * d.rp + j)) (j : Nat) (hj : j < nk) :
    (expandKeyWords nk d).getTk j = keyWord key nk (nk * (d.rp + 1) + j) := by
  have hmod : ∀ j, j < nk → (nk * (d.rp + 1) + j) % nk = j := fun j hj => by
    rw [Nat.mul_add_mod, Nat.mod_eq_of_lt hj]
  have hdiv : ∀ j, j < nk → (nk * (d.rp + 1) + j) / nk = d.rp + 1 := fun j hj => by
    rw [Nat.mul_add_div hnk, Nat.div_eq_of_lt hj, Nat.add_zero]
  have hnext : nk * (d.rp + 1) = nk * d.rp + nk := Nat.mul_succ ..
  induction j with
  | zero =>
    rw [getTk_expandKeyWords nk d hnk8 0 hj, keyWord_of_ge key nk _ hnk (by omega), hmod 0 hj, hdiv 0 hj, if_pos rfl, if_pos rfl,
      h 0 hj, h (nk - 1) (by omega), Nat.add_sub_cancel, show nk * (d.rp + 1) + 0 - nk = nk * d.rp + 0 by omega,
      show nk * (d.rp + 1) + 0 - 1 = nk * d.rp + (nk - 1) by omega]
  | succ j ih =>
    rw [getTk_expandKeyWords nk d hnk8 (j + 1) hj, keyWord_of_ge key nk _ hnk (by omega), hmod (j + 1) hj,
      if_neg (Nat.succ_ne_zero j), if_neg (Nat.succ_ne_zero j), Nat.add_sub_cancel, ih (by omega), h (j + 1) hj,
      show nk * (d.rp + 1) + (j + 1) - nk = nk * d.rp + (j + 1) by omega,
      show nk * (d.rp + 1) + (j + 1) - 1 = nk * (d.rp + 1) + j by omega]

/-- Sizes in range of the schedule's storage: a block and a key of at most 8 words, at most 14 rounds (R12 to R14, R17). -/
structure ScheduleSizes (nb nk nr : Nat) : Prop where
  nb_pos : 0 < nb
  nb_le : nb ≤ 8
  nk_pos : 0 < nk
  nk_le : nk ≤ 8
  nr_le : nr ≤ 14
  key_fits : nk ≤ totalWords nb nr

/-- The legal sizes are in range. -/
theorem scheduleSizes_of_legal {bs ks : Nat} (hb : LegalSize bs) (hk : LegalSize ks) :
    ScheduleSizes (bs / 4) (ks / 4) (roundsFor bs ks) := by
  rcases hb with rfl | rfl | rfl <;> rcases hk with rfl | rfl | rfl <;> constructor <;> decide

section schedule
variable {key : List Byte} {nb nk nr : Nat} (hsizes : ScheduleSizes nb nk nr)
include hsizes

/-- A turn of the expansion loop (R169). -/
theorem expanding_turn {d : Datapath} (h : Expanding nb nk nr (keyWord key nk) d) (hlt : d.tcnt < totalWords nb nr) :
    Expanding nb nk nr (keyWord key nk) (placeKeyWords nb nk nr (expandKeyWords nk d)) := by
  have hwords := getTk_expandKeyWords_keyWord hsizes.nk_pos hsizes.nk_le h.keyWords
  have hcounts := (expansionCounts_turn hsizes.nk_pos h.counts hlt).1
  have htcnt : d.tcnt = nk * (d.rp + 1) := by
    have hmin := h.counts.1
    omega
  obtain ⟨tk, hd⟩ := expandKeyWords_regs nk d
  rw [hd] at hwords hcounts ⊢
  obtain ⟨htk, hrp, -⟩ := placeKeyWords_regs nb nk nr { d with tk := tk, rp := d.rp + 1 } hlt.le
  refine ⟨hcounts, ?_, fun j hj => ?_⟩
  · exact placed_placeKeyWords hsizes.nb_pos hsizes.nb_le hsizes.nr_le hlt.le h.placed fun j hj =>
      (hwords j hj).trans (by rw [← htcnt])
  · rw [hrp, Datapath.getTk, htk]
    exact hwords j hj

/-- The whole loop (R169). -/
theorem expanding_loop (fuel : Nat) {d : Datapath} (h : Expanding nb nk nr (keyWord key nk) d) :
    Expanding nb nk nr (keyWord key nk) (expandLoop nb nk nr fuel d) := by
  induction fuel generalizing d with
  | zero => exact h
  | succ fuel ih =>
    rw [expandLoop]
    split
    next hlt => exact ih (expanding_turn hsizes h hlt)
    next => exact h

/-- The key's own words, placed first, are the first nk of the sequence (R163, R165). -/
theorem expanding_start (d : Datapath) :
    Expanding nb nk nr (keyWord key nk)
      { placeKeyWords nb nk nr { loadKeyWords key nk d with tcnt := 0 } with rp := 0 } := by
  have hload : ∀ j, j < nk → (loadKeyWords key nk d).getTk j = keyWord key nk j := fun j hj => by
    rw [getTk_loadKeyWords, if_pos ⟨hj, hj.trans_le hsizes.nk_le⟩, keyWord_of_lt key nk j hj]
  obtain ⟨htk, -, -, -, -, htcnt⟩ :=
    placeKeyWords_regs nb nk nr { loadKeyWords key nk d with tcnt := 0 } (Nat.zero_le _)
  refine ⟨⟨by simpa using htcnt, hsizes.nk_pos.trans_le hsizes.key_fits⟩, ?_, fun j hj => ?_⟩
  · have hnone : Placed nb nr (keyWord key nk) { loadKeyWords key nk d with tcnt := 0 } := fun i hi => absurd hi (Nat.not_lt_zero i)
    exact placed_placeKeyWords hsizes.nb_pos hsizes.nb_le hsizes.nr_le (Nat.zero_le _) hnone fun j hj => by
      rw [Nat.zero_add]
      exact hload j hj
  · rw [Nat.mul_zero, Nat.zero_add, Datapath.getTk]
    exact (congrArg (wordReg · j) htk).trans (hload j hj)

/-- Every word of the sequence is in its place in Ke, and mirrored in Kd, the middle rows of Kd through InvMixColumnWord (R172,
R173). -/
theorem roundKey_buildSchedule (d : Datapath) (r c : Nat) (hr : r ≤ nr) (hc : c < nb) :
    roundKey (buildSchedule key nb nk nr d).ke r c = keyWord key nk (r * nb + c) ∧
    roundKey (buildSchedule key nb nk nr d).kd (nr - r) c =
      if 1 ≤ nr - r ∧ nr - r ≤ nr - 1 then invMixColumnWord (keyWord key nk (r * nb + c)) else keyWord key nk (r * nb + c) := by
  have hstart := expanding_start (key := key) hsizes d
  have hplaced := (expanding_loop hsizes (totalWords nb nr) hstart).placed
  have htcnt := (expandLoop_counts hsizes.nk_pos (totalWords nb nr) _ hstart.counts (Nat.le_add_left ..)).2
  have hlt : r * nb + c < totalWords nb nr := by
    have hrows : (r + 1) * nb ≤ (nr + 1) * nb := Nat.mul_le_mul_right nb (Nat.succ_le_succ hr)
    rw [Nat.succ_mul] at hrows
    rw [totalWords]
    omega
  have hrow : (r * nb + c) / nb = r := by
    rw [Nat.mul_comm, Nat.mul_add_div hsizes.nb_pos, Nat.div_eq_of_lt hc, Nat.add_zero]
  have hcol : (r * nb + c) % nb = c := by rw [Nat.mul_comm, Nat.mul_add_mod, Nat.mod_eq_of_lt hc]
  obtain ⟨hke, hkd⟩ := hplaced (r * nb + c) (htcnt.symm ▸ hlt)
  rw [hrow, hcol] at hke hkd
  obtain ⟨kd, hmix, hrows⟩ := invMixKd_spec nb nr
    (expandLoop nb nk nr (totalWords nb nr)
      { placeKeyWords nb nk nr { loadKeyWords key nk d with tcnt := 0 } with rp := 0 }) (by have := hsizes.nr_le; omega) hsizes.nb_le
  rw [buildSchedule, hmix]
  refine ⟨hke, ?_⟩
  rw [hrows, hkd]
  simp only [hc, and_true]

end schedule

/-- Ke is the expanded key, row by row (R172). -/
theorem roundKey_scheduleFor_ke {bs ks : Nat} (hb : LegalSize bs) (hk : LegalSize ks) (key : List Byte) (d : Datapath) {r c : Nat}
    (hr : r ≤ roundsFor bs ks) (hc : c < bs / 4) :
    roundKey (scheduleFor key bs ks d).ke r c = keyWord key (ks / 4) (r * (bs / 4) + c) :=
  (roundKey_buildSchedule (scheduleSizes_of_legal hb hk) d r c hr hc).1

/-- Kd is the expanded key with its rows in reverse, the middle ones through InvMixColumnWord (R173). -/
theorem roundKey_scheduleFor_kd {bs ks : Nat} (hb : LegalSize bs) (hk : LegalSize ks) (key : List Byte) (d : Datapath) {r c : Nat}
    (hr : r ≤ roundsFor bs ks) (hc : c < bs / 4) :
    roundKey (scheduleFor key bs ks d).kd r c =
      if 1 ≤ r ∧ r ≤ roundsFor bs ks - 1 then invMixColumnWord (keyWord key (ks / 4) ((roundsFor bs ks - r) * (bs / 4) + c))
      else keyWord key (ks / 4) ((roundsFor bs ks - r) * (bs / 4) + c) := by
  have h := (roundKey_buildSchedule (key := key) (scheduleSizes_of_legal hb hk) d (roundsFor bs ks - r) c (Nat.sub_le ..) hc).2
  rwa [Nat.sub_sub_self hr] at h

end Sys2Proof.Machine
end

section
/-! PROOFS. EncryptBlock and DecryptBlock: what their result depends on (R195, R215), and that DecryptBlock undoes EncryptBlock
(R216). -/

namespace Sys2Proof.Machine

open Sys2Proof.Machine.Rom

/-! ## InvMixColumnWord (R127) -/

/-- The coefficients of InvMixColumn multiply linearly (R114). -/
theorem gmul_xor_of_inverseCoefficient {c : Byte} (hc : c = 0x09 ∨ c = 0x0B ∨ c = 0x0D ∨ c = 0x0E) (x y : Byte) :
    gmul c (x ^^^ y) = gmul c x ^^^ gmul c y := by
  rcases hc with rfl | rfl | rfl | rfl <;> simp only [gmul_09, gmul_0B, gmul_0D, gmul_0E, xtime_xor] <;> ac_rfl

/-- The tables of InvMixColumn are linear. -/
theorem U_xor (x y : Byte) :
    U1 (x ^^^ y) = U1 x ^^^ U1 y ∧ U2 (x ^^^ y) = U2 x ^^^ U2 y ∧ U3 (x ^^^ y) = U3 x ^^^ U3 y ∧ U4 (x ^^^ y) = U4 x ^^^ U4 y := by
  simp [U1_lanes, U2_lanes, U3_lanes, U4_lanes, wordOf_xor, gmul_xor_of_inverseCoefficient]

/-- InvMixColumnWord is linear. -/
theorem invMixColumnWord_xor (v w : Word) : invMixColumnWord (v ^^^ w) = invMixColumnWord v ^^^ invMixColumnWord w := by
  obtain ⟨h1, -⟩ := U_xor (byteK v 0) (byteK w 0)
  obtain ⟨-, h2, -⟩ := U_xor (byteK v 1) (byteK w 1)
  obtain ⟨-, -, h3, -⟩ := U_xor (byteK v 2) (byteK w 2)
  obtain ⟨-, -, -, h4⟩ := U_xor (byteK v 3) (byteK w 3)
  simp only [invMixColumnWord, byteK_xor, h1, h2, h3, h4]
  ac_rfl

/-- InvMixColumnWord takes a column of the forward tables back to its substituted bytes. -/
theorem invMixColumnWord_forward (a0 a1 a2 a3 : Byte) :
    invMixColumnWord (T1 a0 ^^^ T2 a1 ^^^ T3 a2 ^^^ T4 a3) = wordOf (S a0) (S a1) (S a2) (S a3) := by
  simp [invMixColumnWord_xor, invMix_T1, invMix_T2, invMix_T3, invMix_T4, wordOf_xor]

/-- The inverse tables are InvMixColumnWord after SI. -/
theorem inverse_tables (x0 x1 x2 x3 : Byte) :
    T5 x0 ^^^ T6 x1 ^^^ T7 x2 ^^^ T8 x3 = invMixColumnWord (wordOf (SI x0) (SI x1) (SI x2) (SI x3)) := by
  simp only [invMixColumnWord, byteK_wordOf_0, byteK_wordOf_1, byteK_wordOf_2, byteK_wordOf_3, T5_of_U1, T6_of_U2, T7_of_U3,
    T8_of_U4]

/-! ## The state words after k middle rounds -/

/-- One more turn of a loop that starts at 1. -/
theorem forRange_one_succ {α : Type} (k : Nat) (body : Nat → α → α) (s : α) :
    forRange 1 (k + 1) body s = body (k + 1) (forRange 1 k body s) := by
  rw [Nat.add_comm k 1]
  simp [forRange_eq, forUpTo_succ, Nat.add_comm 1 k]

/-- The datapath after the key addition and k middle rounds of EncryptBlock (R192, R193). -/
def encryptAfter (nb : Nat) (ke : RoundKeys) (block : List Byte) (d : Datapath) (k : Nat) : Datapath :=
  forRange 1 k (fun r d => encryptRound nb ke r d) (addInitialKey nb ke block d)

/-- The datapath after the key addition and k middle rounds of DecryptBlock (R212, R213). -/
def decryptAfter (nb : Nat) (kd : RoundKeys) (block : List Byte) (d : Datapath) (k : Nat) : Datapath :=
  forRange 1 k (fun r d => decryptRound nb kd r d) (addInitialKey nb kd block d)

section after
variable (nb nr : Nat) (ke kd : RoundKeys) (block : List Byte) (d : Datapath) (k : Nat)

theorem encryptBlock_eq : (encryptBlock nb nr ke block d).1 =
    (List.range nb).flatMap (encryptFinalBytes nb nr ke (encryptAfter nb ke block d (nr - 1))) := rfl

theorem decryptBlock_eq : (decryptBlock nb nr kd block d).1 =
    (List.range nb).flatMap (decryptFinalBytes nb nr kd (decryptAfter nb kd block d (nr - 1))) := rfl

theorem encryptAfter_zero : encryptAfter nb ke block d 0 = addInitialKey nb ke block d := rfl

theorem decryptAfter_zero : decryptAfter nb kd block d 0 = addInitialKey nb kd block d := rfl

theorem encryptAfter_succ :
    encryptAfter nb ke block d (k + 1) = encryptRound nb ke (k + 1) (encryptAfter nb ke block d k) := forRange_one_succ ..

theorem decryptAfter_succ :
    decryptAfter nb kd block d (k + 1) = decryptRound nb kd (k + 1) (decryptAfter nb kd block d k) := forRange_one_succ ..

/-- EncryptBlock gives 4·nb bytes (R195). -/
theorem length_encryptBlock : (encryptBlock nb nr ke block d).1.length = 4 * nb := length_flatMap_range4 _ _ fun _ => rfl

/-- DecryptBlock gives 4·nb bytes (R215). -/
theorem length_decryptBlock : (decryptBlock nb nr kd block d).1.length = 4 * nb := length_flatMap_range4 _ _ fun _ => rfl

end after

/-! ## What the result depends on (R195, R215) -/

/-- Two datapaths with the same nb state words. -/
def SameStateWords (nb : Nat) (d d' : Datapath) : Prop := ∀ j, j < nb → d.getT j = d'.getT j

/-- Two round-key arrays with the same entries in rows 0..nr and columns 0..nb-1 (R37). -/
def SameRoundKeys (nb nr : Nat) (k k' : RoundKeys) : Prop := ∀ r c, r ≤ nr → c < nb → roundKey k r c = roundKey k' r c

/-- State words that were all written alike are the same: the register has eight, and past them both read 0. -/
theorem sameStateWords_of_written {nb : Nat} {d d' x x' : Datapath} {f g : Nat → Word}
    (h : ∀ j, x.getT j = if j < nb ∧ j < 8 then f j else d.getT j)
    (h' : ∀ j, x'.getT j = if j < nb ∧ j < 8 then g j else d'.getT j) (hfg : ∀ j, j < nb → f j = g j) :
    SameStateWords nb x x' := by
  intro j hj
  by_cases h8 : j < 8
  · rw [h, h', if_pos ⟨hj, h8⟩, if_pos ⟨hj, h8⟩, hfg j hj]
  · rw [Datapath.getT, Datapath.getT, wordReg_of_ge (Nat.not_lt.mp h8), wordReg_of_ge (Nat.not_lt.mp h8)]

section depends
variable {nb nr : Nat} {k k' : RoundKeys} (hk : SameRoundKeys nb nr k k') (block : List Byte) (d d' : Datapath)
include hk

theorem sameStateWords_addInitialKey : SameStateWords nb (addInitialKey nb k block d) (addInitialKey nb k' block d') :=
  sameStateWords_of_written (getT_addInitialKey nb k block d) (getT_addInitialKey nb k' block d') fun j hj => by
    rw [hk 0 j (Nat.zero_le _) hj]

theorem sameStateWords_encryptAfter (n : Nat) (hn : n ≤ nr) :
    SameStateWords nb (encryptAfter nb k block d n) (encryptAfter nb k' block d' n) := by
  induction n with
  | zero => exact sameStateWords_addInitialKey hk block d d'
  | succ n ih =>
    have ih := ih (Nat.le_of_succ_le hn)
    rw [encryptAfter_succ, encryptAfter_succ]
    refine sameStateWords_of_written (getT_encryptRound nb k (n + 1) _) (getT_encryptRound nb k' (n + 1) _) fun j hj => ?_
    have hmod := fun i => ih (i % nb) (Nat.mod_lt i (Nat.zero_lt_of_lt hj))
    simp only [encryptRoundWord, ih j hj, hmod, hk (n + 1) j hn hj]

theorem sameStateWords_decryptAfter (n : Nat) (hn : n ≤ nr) :
    SameStateWords nb (decryptAfter nb k block d n) (decryptAfter nb k' block d' n) := by
  induction n with
  | zero => exact sameStateWords_addInitialKey hk block d d'
  | succ n ih =>
    have ih := ih (Nat.le_of_succ_le hn)
    rw [decryptAfter_succ, decryptAfter_succ]
    refine sameStateWords_of_written (getT_decryptRound nb k (n + 1) _) (getT_decryptRound nb k' (n + 1) _) fun j hj => ?_
    have hmod := fun i => ih (i % nb) (Nat.mod_lt i (Nat.zero_lt_of_lt hj))
    simp only [decryptRoundWord, ih j hj, hmod, hk (n + 1) j hn hj]

/-- EncryptBlock depends on the block and on the meaningful round keys alone (R195). -/
theorem encryptBlock_congr : (encryptBlock nb nr k block d).1 = (encryptBlock nb nr k' block d').1 := by
  have hwords := sameStateWords_encryptAfter hk block d d' (nr - 1) (Nat.sub_le ..)
  rw [encryptBlock_eq, encryptBlock_eq]
  refine List.flatMap_congr fun i hi => ?_
  have hi := List.mem_range.mp hi
  have hmod := fun j => hwords (j % nb) (Nat.mod_lt j (Nat.zero_lt_of_lt hi))
  simp only [encryptFinalBytes, hwords i hi, hmod, hk nr i le_rfl hi]

/-- DecryptBlock depends on the block and on the meaningful round keys alone (R215). -/
theorem decryptBlock_congr : (decryptBlock nb nr k block d).1 = (decryptBlock nb nr k' block d').1 := by
  have hwords := sameStateWords_decryptAfter hk block d d' (nr - 1) (Nat.sub_le ..)
  rw [decryptBlock_eq, decryptBlock_eq]
  refine List.flatMap_congr fun i hi => ?_
  have hi := List.mem_range.mp hi
  have hmod := fun j => hwords (j % nb) (Nat.mod_lt j (Nat.zero_lt_of_lt hi))
  simp only [decryptFinalBytes, hwords i hi, hmod, hk nr i le_rfl hi]

end depends

/-! ## DecryptBlock undoes EncryptBlock (R216) -/

/-- State word i after SubBytes and ShiftRows (R193, R194, R196). -/
def subShiftWord (nb : Nat) (d : Datapath) (i : Nat) : Word :=
  wordOf (S (byteK (d.getT i) 0)) (S (byteK (d.getT ((i + (encryptOffsets nb).s1) % nb)) 1))
    (S (byteK (d.getT ((i + (encryptOffsets nb).s2) % nb)) 2)) (S (byteK (d.getT ((i + (encryptOffsets nb).s3) % nb)) 3))

/-- A middle round of encryption seen through InvMixColumnWord. -/
theorem invMixColumnWord_encryptRoundWord (nb : Nat) (ke : RoundKeys) (r i : Nat) (d : Datapath) :
    invMixColumnWord (encryptRoundWord nb ke r i d) = subShiftWord nb d i ^^^ invMixColumnWord (roundKey ke r i) := by
  rw [encryptRoundWord, invMixColumnWord_xor, invMixColumnWord_forward]
  rfl

/-- The final round of encryption, as words. -/
theorem memRead4_encryptFinalBytes (nb nr : Nat) (ke : RoundKeys) (d : Datapath) (i : Nat) :
    memRead4 (encryptFinalBytes nb nr ke d i) 0 = subShiftWord nb d i ^^^ roundKey ke nr i := by
  rw [subShiftWord, ← wordOf_byteK (roundKey ke nr i), wordOf_xor]
  rfl

/-- The decryption state `y` holds the encryption state `x` after SubBytes and ShiftRows. -/
def Undoing (nb : Nat) (x y : Datapath) : Prop := ∀ i, i < nb → y.getT i = subShiftWord nb x i

/-- Two rotations that add up to nb undo each other. -/
theorem rotate_back {nb i o o' : Nat} (hi : i < nb) (h : o + o' = nb) : ((i + o) % nb + o') % nb = i := by
  rw [Nat.mod_add_mod, Nat.add_assoc, h, Nat.add_mod_right, Nat.mod_eq_of_lt hi]

/-- Each decryption offset is nb minus the encryption offset (R211). -/
theorem offsets_add {nb : Nat} (hnb : nb ∈ [4, 6, 8]) :
    (decryptOffsets nb).s1 + (encryptOffsets nb).s1 = nb ∧ (decryptOffsets nb).s2 + (encryptOffsets nb).s2 = nb ∧
      (decryptOffsets nb).s3 + (encryptOffsets nb).s3 = nb := by
  revert nb
  decide

section undoing
variable {nb : Nat} (hnb : nb ∈ [4, 6, 8]) {x y : Datapath} (h : Undoing nb x y) {i : Nat} (hi : i < nb)
include hnb h hi

/-- The bytes that decryption gathers for word i, substituted back, are those of the encryption state's word i. -/
theorem undoing_bytes :
    SI (byteK (y.getT i) 0) = byteK (x.getT i) 0 ∧
    SI (byteK (y.getT ((i + (decryptOffsets nb).s1) % nb)) 1) = byteK (x.getT i) 1 ∧
    SI (byteK (y.getT ((i + (decryptOffsets nb).s2) % nb)) 2) = byteK (x.getT i) 2 ∧
    SI (byteK (y.getT ((i + (decryptOffsets nb).s3) % nb)) 3) = byteK (x.getT i) 3 := by
  obtain ⟨h1, h2, h3⟩ := offsets_add hnb
  have hmod := fun j => h (j % nb) (Nat.mod_lt j (Nat.zero_lt_of_lt hi))
  simp only [h i hi, hmod, subShiftWord, byteK_wordOf_0, byteK_wordOf_1, byteK_wordOf_2, byteK_wordOf_3, SI_S,
    rotate_back hi h1, rotate_back hi h2, rotate_back hi h3, and_self]

/-- A middle round of decryption starts from the encryption state word. -/
theorem decryptRoundWord_of_undoing (kd : RoundKeys) (r : Nat) :
    decryptRoundWord nb kd r i y = invMixColumnWord (x.getT i) ^^^ roundKey kd r i := by
  obtain ⟨h0, h1, h2, h3⟩ := undoing_bytes hnb h hi
  simp only [decryptRoundWord, inverse_tables, h0, h1, h2, h3, wordOf_byteK]

/-- The final round of decryption starts from the encryption state word. -/
theorem decryptFinalBytes_of_undoing (nr : Nat) (kd : RoundKeys) :
    decryptFinalBytes nb nr kd y i = bytesOfWord (x.getT i ^^^ roundKey kd nr i) := by
  obtain ⟨h0, h1, h2, h3⟩ := undoing_bytes hnb h hi
  simp only [decryptFinalBytes, h0, h1, h2, h3, bytesOfWord, byteK_xor]

end undoing

/-- Kd holds the rows of Ke in reverse, the middle ones through InvMixColumnWord (R173). -/
def MirroredKeys (nb nr : Nat) (ke kd : RoundKeys) : Prop :=
  ∀ r c, r ≤ nr → c < nb → roundKey kd r c =
    if 1 ≤ r ∧ r ≤ nr - 1 then invMixColumnWord (roundKey ke (nr - r) c) else roundKey ke (nr - r) c

/-- The round keys of one schedule are mirrored (R173). -/
theorem mirroredKeys_scheduleFor {bs ks : Nat} (hb : LegalSize bs) (hk : LegalSize ks) (key : List Byte) (d : Datapath) :
    MirroredKeys (bs / 4) (roundsFor bs ks) (scheduleFor key bs ks d).ke (scheduleFor key bs ks d).kd := by
  intro r c hr hc
  rw [roundKey_scheduleFor_kd hb hk key d hr hc, roundKey_scheduleFor_ke hb hk key d (Nat.sub_le ..) hc]

section inverse
variable {nb nr : Nat} {ke kd : RoundKeys} (hnb : nb ∈ [4, 6, 8]) (hnr : 1 ≤ nr) (hkeys : MirroredKeys nb nr ke kd)
include hnb hnr hkeys

/-- After k middle rounds, decryption has undone encryption down to its round nr - 1 - k. -/
theorem undoing_decryptAfter (block : List Byte) (d d' : Datapath) (k : Nat) (hk : k ≤ nr - 1) :
    Undoing nb (encryptAfter nb ke block d (nr - 1 - k))
      (decryptAfter nb kd (encryptBlock nb nr ke block d).1 d' k) := by
  have hnb8 : nb ≤ 8 := by simp only [List.mem_cons, List.not_mem_nil, or_false] at hnb; omega
  induction k with
  | zero =>
    intro i hi
    rw [decryptAfter_zero, getT_addInitialKey, if_pos ⟨hi, hi.trans_le hnb8⟩, encryptBlock_eq,
      memRead4_flatMap_range4 nb _ (fun _ => rfl) i hi, memRead4_encryptFinalBytes, hkeys 0 i (Nat.zero_le _) hi, if_neg (by omega),
      BitVec.xor_assoc]
    simp
  | succ k ih =>
    intro i hi
    have ih := ih (Nat.le_of_succ_le hk)
    rw [decryptAfter_succ, getT_decryptRound, if_pos ⟨hi, hi.trans_le hnb8⟩, decryptRoundWord_of_undoing hnb ih hi,
      show nr - 1 - k = nr - 1 - (k + 1) + 1 by omega, encryptAfter_succ, getT_encryptRound, if_pos ⟨hi, hi.trans_le hnb8⟩,
      invMixColumnWord_encryptRoundWord, hkeys (k + 1) i (by omega) hi, if_pos (by omega),
      show nr - (k + 1) = nr - 1 - (k + 1) + 1 by omega, BitVec.xor_assoc]
    simp

/-- DecryptBlock undoes EncryptBlock. -/
theorem decryptBlock_encryptBlock {block : List Byte} (hblock : block.length = 4 * nb) (d d' : Datapath) :
    (decryptBlock nb nr kd (encryptBlock nb nr ke block d).1 d').1 = block := by
  have hnb8 : nb ≤ 8 := by simp only [List.mem_cons, List.not_mem_nil, or_false] at hnb; omega
  have hlast := undoing_decryptAfter hnb hnr hkeys block d d' (nr - 1) le_rfl
  rw [Nat.sub_self, encryptAfter_zero] at hlast
  have hword : ∀ i ∈ List.range nb,
      decryptFinalBytes nb nr kd (decryptAfter nb kd (encryptBlock nb nr ke block d).1 d' (nr - 1)) i =
        bytesOfWord (memRead4 block (4 * i)) := fun i hi => by
    have hi := List.mem_range.mp hi
    rw [decryptFinalBytes_of_undoing hnb hlast hi, getT_addInitialKey, if_pos ⟨hi, hi.trans_le hnb8⟩, hkeys nr i le_rfl hi,
      if_neg (by omega), Nat.sub_self, BitVec.xor_assoc, BitVec.xor_self, BitVec.xor_zero]
  rw [decryptBlock_eq, List.flatMap_congr hword]
  simpa only [memRead4, bytesOfWord_wordOf] using flatMap_byteAt nb block hblock

end inverse

/-! ## ENCB, then DECB (R34, R190, R210, R216) -/

/-- The invariant holds in every state a run reaches: it holds after reset, and bytes and resets that arrive do not touch what it
speaks of. -/
theorem Reachable.inv {s : State} (h : Reachable s) : s.Inv := by
  induction h with
  | reset => exact coreInvariantAtReset
  | send s bytes _ ih => exact ⟨ih.keyed_scheduled, ih.iv_keyed, ih.tcnt_le, ih.rp_le, ih.no_operands⟩
  | assertReset s _ ih => exact ⟨ih.keyed_scheduled, ih.iv_keyed, ih.tcnt_le, ih.rp_le, ih.no_operands⟩
  | step s t _ hstep ih => exact everyStepKeepsCoreInvariant s t ih hstep

/-- The sizes and round keys of a context that holds a schedule are those of a block transform and its inverse (R34, R36). -/
theorem Context.Scheduled.keys {c : Context} (h : c.Scheduled) :
    c.blockWords ∈ [4, 6, 8] ∧ 1 ≤ c.rounds ∧ MirroredKeys c.blockWords c.rounds c.ke c.kd := by
  obtain ⟨bs, ks, key, d, hb, hk, -, hnb, -, hnr, hke, hkd⟩ := h
  have hwords : c.blockWords = bs / 4 := by
    rw [Context.blockWords, hnb, BitVec.toNat_ofNat]
    exact Nat.mod_eq_of_lt (by omega)
  have hrounds : c.rounds = roundsFor bs ks := by
    have hle := (scheduleSizes_of_legal hb hk).nr_le
    rw [Context.rounds, hnr, BitVec.toNat_ofNat]
    exact Nat.mod_eq_of_lt (by omega)
  rw [hwords, hrounds, hke, hkd]
  refine ⟨?_, ?_, mirroredKeys_scheduleFor hb hk key d⟩
  · rcases hb with rfl | rfl | rfl <;> decide
  · rw [roundsFor_eq_max hb hk]
    omega

/-- A data operand that is the whole operand field. -/
theorem dataOperand_whole (inp : List Byte) : dataOperand inp 0 0 inp.length = inp := slice_zero_of_length_le le_rfl

/-- ENCB of a block of the loaded size (R190). -/
theorem execEncb_ok {s : State} (hf : s.faulted = false) (hk : s.ctx.keyed = true) (hlen : s.inp.length = s.ctx.blockBytes) :
    execEncb s.inp.length s = .next (State.respond
      { s with dp := (encryptBlock s.ctx.blockWords s.ctx.rounds s.ctx.ke s.inp s.dp).2 } .ok 0x03 0
      (encryptBlock s.ctx.blockWords s.ctx.rounds s.ctx.ke s.inp s.dp).1) := by
  simp [execEncb, unlessFaulted_of_clear hf, hk, ← hlen, dataOperand_whole, finish]

/-- DECB of a block of the loaded size (R210). -/
theorem execDecb_ok {s : State} (hf : s.faulted = false) (hk : s.ctx.keyed = true) (hlen : s.inp.length = s.ctx.blockBytes) :
    execDecb s.inp.length s = .next (State.respond
      { s with dp := (decryptBlock s.ctx.blockWords s.ctx.rounds s.ctx.kd s.inp s.dp).2 } .ok 0x04 0
      (decryptBlock s.ctx.blockWords s.ctx.rounds s.ctx.kd s.inp s.dp).1) := by
  simp [execDecb, unlessFaulted_of_clear hf, hk, ← hlen, dataOperand_whole, finish]

/-- Settles O30: a reachable keyed context holds a schedule by the invariant, and with its mirrored keys DecryptBlock undoes
EncryptBlock. -/
theorem decbUndoesEncbInEveryRun : Obligations.DecbUndoesEncbInEveryRun := by
  rintro s s1 block hreach hkeyed hlen hctx1 hf1 rfl
  obtain ⟨hnb, hnr, hkeys⟩ := (hreach.inv.keyed_scheduled hkeyed).keys
  rw [← hctx1] at hkeyed hlen hnb hnr hkeys
  refine ⟨_, _, execEncb_ok hf1 hkeyed hlen, rfl, fun s2 hctx2 hf2 hinp2 => ?_⟩
  replace hctx2 : s2.ctx = s1.ctx := hctx2
  have hlen2 : s2.inp.length = s2.ctx.blockBytes := by
    rw [hinp2, hctx2]
    exact length_encryptBlock ..
  rw [← hinp2]
  refine ⟨_, execDecb_ok hf2 (hctx2 ▸ hkeyed) hlen2, ?_⟩
  rw [respond_responses, hctx2, hinp2, decryptBlock_encryptBlock hnb hnr hkeys hlen]

end Sys2Proof.Machine
end

section
/-! PROOFS. No response depends on an unspecified value (R48, R322): two states that agree on everything specified are answered
alike, command by command. -/

namespace Sys2Proof.Machine

/-! ## Contexts that agree -/

theorem Context.Agree.refl (c : Context) : c.Agree c where
  keyed := rfl
  ivValid := rfl
  nb _ := rfl
  nk _ := rfl
  nr _ := rfl
  ke _ _ _ _ _ := rfl
  kd _ _ _ _ _ := rfl
  iv _ _ := rfl

section agree
variable {c c' : Context} (h : c.Agree c') (hk : c.keyed = true)
include h hk

theorem Context.Agree.blockWords : c.blockWords = c'.blockWords := congrArg BitVec.toNat (h.nb hk)

theorem Context.Agree.blockBytes : c.blockBytes = c'.blockBytes := congrArg (4 * ·) (h.blockWords hk)

theorem Context.Agree.rounds : c.rounds = c'.rounds := congrArg BitVec.toNat (h.nr hk)

/-- EncryptBlock on either context gives the same bytes (R195). -/
theorem Context.Agree.encryptBlock (block : List Byte) (d d' : Datapath) :
    (encryptBlock c.blockWords c.rounds c.ke block d).1 = (encryptBlock c'.blockWords c'.rounds c'.ke block d').1 := by
  rw [← h.blockWords hk, ← h.rounds hk]
  exact encryptBlock_congr (h.ke hk) block d d'

/-- DecryptBlock on either context gives the same bytes (R215). -/
theorem Context.Agree.decryptBlock (block : List Byte) (d d' : Datapath) :
    (decryptBlock c.blockWords c.rounds c.kd block d).1 = (decryptBlock c'.blockWords c'.rounds c'.kd block d').1 := by
  rw [← h.blockWords hk, ← h.rounds hk]
  exact decryptBlock_congr (h.kd hk) block d d'

end agree

/-! ## The chaining value (R232, R233) -/

/-- Writing the same string over two stores with the same first bytes keeps them the same. -/
theorem storeBytes_setStoreBytes_congr {v v' : Vector Byte 32} {n : Nat} (h : storeBytes v n = storeBytes v' n) (s : List Byte) :
    storeBytes (setStoreBytes v s) n = storeBytes (setStoreBytes v' s) n := by
  apply List.ext_getElem
  · simp [length_storeBytes]
  · intro i h1 h2
    have hi : i < (storeBytes v n).length := by simpa [length_storeBytes] using h1
    have hv := List.getElem_of_eq h hi
    simp only [storeBytes, List.getElem_take, Vector.getElem_toList] at hv
    simp [storeBytes, setStoreBytes, hv]

/-- The first bytes of one store, written over another, are read back. -/
theorem storeBytes_setStoreBytes_storeBytes (v w : Vector Byte 32) (n : Nat) :
    storeBytes (setStoreBytes v (storeBytes w n)) n = storeBytes w n := by
  apply List.ext_getElem
  · simp [length_storeBytes]
  · intro i h1 h2
    obtain ⟨hn, h32⟩ : i < n ∧ i < 32 := by simpa [length_storeBytes] using h2
    simp [storeBytes, setStoreBytes, hn, h32]

/-- What holds between two loops before them and is kept by each pair of turns holds after them. -/
theorem forUpTo_related {α : Type} (R : α → α → Prop) (body body' : Nat → α → α) (n : Nat) (s s' : α) (h : R s s')
    (hturn : ∀ i x x', R x x' → R (body i x) (body' i x')) : R (forUpTo n body s) (forUpTo n body' s') := by
  induction n with
  | zero => exact h
  | succ n ih => exact hturn n _ _ ih

/-- Two chains under way have given the same bytes and carry the same chaining value. -/
def SameChain (bs : Nat) (acc acc' : List Byte × Datapath) : Prop :=
  acc.1 = acc'.1 ∧ storeBytes acc.2.v bs = storeBytes acc'.2.v bs

/-- Chains that start at the same IV (R238). -/
theorem sameChain_start {bs bs' : Nat} {iv iv' : Vector Byte 32} (hbs : bs = bs') (hiv : storeBytes iv bs = storeBytes iv' bs')
    (d d' : Datapath) : SameChain bs ([], d.setV (storeBytes iv bs)) ([], d'.setV (storeBytes iv' bs')) := by
  subst hbs
  refine ⟨rfl, ?_⟩
  rw [setV_v, setV_v, storeBytes_setStoreBytes_storeBytes, storeBytes_setStoreBytes_storeBytes, hiv]

/-- A turn that appends and carries the same strings keeps two chains the same, if it touches the cipher state alone before. -/
theorem SameChain.turn {bs : Nat} {acc acc' : List Byte × Datapath} (h : SameChain bs acc acc') {d d' : Datapath}
    (hd : acc.2.SameButTA d) (hd' : acc'.2.SameButTA d') {out out' : List Byte} (hout : out = out') {carry carry' : List Byte}
    (hcarry : carry = carry') : SameChain bs (acc.1 ++ out, d.setV carry) (acc'.1 ++ out', d'.setV carry') := by
  obtain ⟨hbytes, hv⟩ := h
  subst hout hcarry
  refine ⟨congrArg (· ++ out) hbytes, ?_⟩
  rw [setV_v, setV_v, hd.v, hd'.v]
  exact storeBytes_setStoreBytes_congr hv carry

section chains
variable {c c' : Context} (h : c.Agree c') (hk : c.keyed = true) (hi : c.ivValid = true) (m : List Byte) (d d' : Datapath)
include h hk hi

/-- The chained encryption on either context gives the same bytes (R232, R249). -/
theorem Context.Agree.cbcEncryptChain : (cbcEncryptChain c m d).1 = (cbcEncryptChain c' m d').1 := by
  have hbs := h.blockBytes hk
  unfold Machine.cbcEncryptChain
  rw [← hbs]
  refine (forUpTo_related (SameChain c.blockBytes) _ _ _ _ _ (sameChain_start rfl (hbs ▸ h.iv hk hi) d d')
    fun j acc acc' hacc => ?_).1
  have hout := h.encryptBlock hk (xorbytes (messageBlock c.blockBytes m j) (storeBytes acc.2.v c.blockBytes)) acc.2 acc'.2
  rw [cbcEncryptTurn, cbcEncryptTurn, ← hbs, ← hacc.2]
  exact hacc.turn (sameButTA_encryptBlock ..) (sameButTA_encryptBlock ..) hout hout

/-- The chained decryption on either context gives the same bytes (R233, R249). -/
theorem Context.Agree.cbcDecryptChain : (cbcDecryptChain c m d).1 = (cbcDecryptChain c' m d').1 := by
  have hbs := h.blockBytes hk
  unfold Machine.cbcDecryptChain
  rw [← hbs]
  refine (forUpTo_related (SameChain c.blockBytes) _ _ _ _ _ (sameChain_start rfl (hbs ▸ h.iv hk hi) d d')
    fun j acc acc' hacc => ?_).1
  have hout := h.decryptBlock hk (messageBlock c.blockBytes m j) acc.2 acc'.2
  rw [cbcDecryptTurn, cbcDecryptTurn, ← hbs, ← hacc.2]
  exact hacc.turn (sameButTA_decryptBlock ..) (sameButTA_decryptBlock ..) (by rw [hout]) rfl

end chains

/-! ## Results that cannot be told apart -/

/-- Two results that answer the same response, each after the responses of its own state, and leave states that agree. -/
def Alike (s s' : State) (r r' : Result) : Prop :=
  ∃ t t' a, r = .next t ∧ r' = .next t' ∧ t.responses = s.responses ++ [a] ∧ t'.responses = s'.responses ++ [a] ∧ t.Agree t'

/-- The same response from states that agree and have the responses of `s` and `s'`. -/
theorem respond_alike {s s' u u' : State} {st : Status} {opc detail : Byte} {out out' : List Byte} (h : u.Agree u')
    (hout : out = out') (hr : u.responses = s.responses := by rfl) (hr' : u'.responses = s'.responses := by rfl) :
    Alike s s' (.next (u.respond st opc detail out)) (.next (u'.respond st opc detail out')) := by
  subst hout
  refine ⟨_, _, response st opc detail out, rfl, rfl, ?_, ?_, h.arrivals, h.faulted, h.ctx⟩
  · rw [respond_responses, hr]
  · rw [respond_responses, hr']

/-- An error from states that agree. -/
theorem raise_alike {s s' : State} (h : s.Agree s') (st : Status) (opc : Byte) (detail : Byte := 0) :
    Alike s s' (raise s st opc detail) (raise s' st opc detail) := respond_alike h rfl

/-- Agreement looks neither at the datapath registers nor at IN (R48). -/
theorem State.Agree.withTransient {s s' : State} (h : s.Agree s') (d d' : Datapath) (x x' : List Byte) :
    State.Agree { s with dp := d, inp := x } { s' with dp := d', inp := x' } := ⟨h.arrivals, h.faulted, h.ctx⟩

/-- The length fault sets the flag in both (R241). -/
theorem State.Agree.setFaulted {s s' : State} (h : s.Agree s') : s.setFaulted.Agree s'.setFaulted := ⟨h.arrivals, rfl, h.ctx⟩

/-- The same check in both. -/
theorem ite_alike {s s' : State} {p p' : Prop} [Decidable p] [Decidable p'] (hp : p ↔ p') {r1 r1' r2 r2' : Result}
    (h1 : p → Alike s s' r1 r1') (h2 : ¬ p → Alike s s' r2 r2') : Alike s s' (if p then r1 else r2) (if p' then r1' else r2') := by
  by_cases h : p
  · rw [if_pos h, if_pos (hp.mp h)]
    exact h1 h
  · rw [if_neg h, if_neg fun h' => h (hp.mpr h')]
    exact h2 h

/-- The fault check in states that agree (R275). -/
theorem unlessFaulted_alike {s s' : State} (h : s.Agree s') (opc : Byte) {r r' : Result} (hr : Alike s s' r r') :
    Alike s s' (unlessFaulted s opc r) (unlessFaulted s' opc r') :=
  ite_alike (by rw [h.faulted]) (fun _ => raise_alike h .faulted opc) fun _ => hr

/-- Schedules of the same key have the same meaningful round keys, whatever the datapath held (R175). -/
theorem scheduleFor_sameRoundKeys {bs ks : Nat} (hb : LegalSize bs) (hks : LegalSize ks) (key : List Byte) (d d' : Datapath)
    {nb nr : Nat} (hnb : nb ≤ bs / 4) (hnr : nr ≤ roundsFor bs ks) :
    SameRoundKeys nb nr (scheduleFor key bs ks d).ke (scheduleFor key bs ks d').ke ∧
    SameRoundKeys nb nr (scheduleFor key bs ks d).kd (scheduleFor key bs ks d').kd := by
  refine ⟨fun r k hr hk => ?_, fun r k hr hk => ?_⟩
  · rw [roundKey_scheduleFor_ke hb hks key d (hr.trans hnr) (hk.trans_le hnb),
      roundKey_scheduleFor_ke hb hks key d' (hr.trans hnr) (hk.trans_le hnb)]
  · rw [roundKey_scheduleFor_kd hb hks key d (hr.trans hnr) (hk.trans_le hnb),
      roundKey_scheduleFor_kd hb hks key d' (hr.trans hnr) (hk.trans_le hnb)]

/-- The sizes a context takes with a schedule are no larger than the schedule's. -/
theorem loadSchedule_sizes_le (c : Context) (bs ks : Nat) (d : Datapath) :
    (c.loadSchedule bs ks d).blockWords ≤ bs / 4 ∧ (c.loadSchedule bs ks d).rounds ≤ roundsFor bs ks ∧
      (c.loadSchedule bs ks d).blockBytes ≤ bs := by
  have hwords : (c.loadSchedule bs ks d).blockWords ≤ bs / 4 := Nat.mod_le ..
  exact ⟨hwords, Nat.mod_le .., (Nat.mul_le_mul_left 4 hwords).trans (Nat.mul_div_le ..)⟩

/-- Two contexts that took the schedule of the same key, and an IV store whose meaningful bytes are the same if an IV is loaded,
agree (R175). -/
theorem loadSchedule_agree {bs ks : Nat} (hb : LegalSize bs) (hks : LegalSize ks) (c c' : Context) (key : List Byte)
    (d d' : Datapath) {ivValid : Bool} {iv iv' : Vector Byte 32}
    (hiv : ivValid = true → ∀ n, n ≤ bs → storeBytes iv n = storeBytes iv' n) :
    Context.Agree
      { c.loadSchedule bs ks (scheduleFor key bs ks d) with keyed := true, ivValid := ivValid, iv := iv }
      { c'.loadSchedule bs ks (scheduleFor key bs ks d') with keyed := true, ivValid := ivValid, iv := iv' } := by
  obtain ⟨hwords, hrounds, hbytes⟩ := loadSchedule_sizes_le c bs ks (scheduleFor key bs ks d)
  obtain ⟨hke, hkd⟩ := scheduleFor_sameRoundKeys hb hks key d d' hwords hrounds
  exact ⟨rfl, rfl, fun _ => rfl, fun _ => rfl, fun _ => rfl, fun _ => hke, fun _ => hkd, fun _ h => hiv h _ hbytes⟩

section commands
variable {s s' : State} (h : s.Agree s')
include h

theorem keyed_iff_of_agree : ¬ s.ctx.keyed = true ↔ ¬ s'.ctx.keyed = true := by rw [h.ctx.keyed]

theorem ivValid_iff_of_agree : ¬ s.ctx.ivValid = true ↔ ¬ s'.ctx.ivValid = true := by rw [h.ctx.ivValid]

/-- The STAT payload shows no unspecified value (R44, R261). -/
theorem statPayload_of_agree : s.statPayload = s'.statPayload := by
  have hflags : s.statFlags = s'.statFlags := by
    rw [State.statFlags, State.statFlags, h.ctx.keyed, h.ctx.ivValid, h.faulted]
  rw [State.statPayload, State.statPayload, hflags, ← h.ctx.keyed]
  split
  next hk => rw [h.ctx.nb hk, h.ctx.nk hk, h.ctx.nr hk]
  next => rfl

theorem execStat_alike : Alike s s' (execStat s) (execStat s') := by
  rw [execStat, execStat, h.faulted]
  exact respond_alike h (statPayload_of_agree h)

theorem illegalCommand_alike (opc : Byte) : Alike s s' (illegalCommand s opc) (illegalCommand s' opc) :=
  unlessFaulted_alike h opc (raise_alike h .illegalCommand opc)

variable (hinp : s.inp = s'.inp)
include hinp

theorem execKinit_alike (klen blen : Nat) : Alike s s' (execKinit klen blen s) (execKinit klen blen s') := by
  refine unlessFaulted_alike h _ <| ite_alike Iff.rfl (fun _ => raise_alike h _ _) fun hb =>
    ite_alike Iff.rfl (fun _ => raise_alike h _ _) fun hk => ?_
  rw [← hinp]
  refine respond_alike ?_ rfl
  refine ⟨h.arrivals, h.faulted, ?_⟩
  exact loadSchedule_agree (not_not.mp hb) (not_not.mp hk) _ _ _ _ _ fun hiv => (by cases hiv)

theorem execCinit_alike (klen blen ivlen : Nat) (hlen : klen + ivlen ≤ s.inp.length) :
    Alike s s' (execCinit klen blen ivlen s) (execCinit klen blen ivlen s') := by
  refine unlessFaulted_alike h _ <| ite_alike Iff.rfl (fun _ => raise_alike h _ _) fun hb =>
    ite_alike Iff.rfl (fun _ => raise_alike h _ _) fun hk => ite_alike Iff.rfl (fun _ => raise_alike h _ _) fun hi => ?_
  rw [← hinp]
  have hiv : true = true → ∀ n, n ≤ blen →
      storeBytes (setStoreBytes (freeIvStore s.freeCount) (ivOperand s.inp klen ivlen)) n =
        storeBytes (setStoreBytes (freeIvStore s'.freeCount) (ivOperand s.inp klen ivlen)) n := fun _ n hn => by
    refine storeBytes_setStoreBytes_eq _ _ _ _ ?_
    rw [ivOperand, length_slice]
    omega
  refine respond_alike ?_ rfl
  refine ⟨h.arrivals, h.faulted, ?_⟩
  dsimp only [Context.markKeyedWithIv, Context.loadIv]
  exact loadSchedule_agree (not_not.mp hb) (not_not.mp hk) _ _ _ _ _ hiv

theorem execEncb_alike (dlen : Nat) : Alike s s' (execEncb dlen s) (execEncb dlen s') := by
  refine unlessFaulted_alike h _ <| ite_alike (keyed_iff_of_agree h) (fun _ => raise_alike h _ _) fun hk => ?_
  have hk := not_not.mp hk
  refine ite_alike (by rw [h.ctx.blockBytes hk]) (fun _ => raise_alike h _ _) fun _ => ?_
  rw [← hinp]
  exact respond_alike (h.withTransient ..) (h.ctx.encryptBlock hk ..)

theorem execDecb_alike (dlen : Nat) : Alike s s' (execDecb dlen s) (execDecb dlen s') := by
  refine unlessFaulted_alike h _ <| ite_alike (keyed_iff_of_agree h) (fun _ => raise_alike h _ _) fun hk => ?_
  have hk := not_not.mp hk
  refine ite_alike (by rw [h.ctx.blockBytes hk]) (fun _ => raise_alike h _ _) fun _ => ?_
  rw [← hinp]
  exact respond_alike (h.withTransient ..) (h.ctx.decryptBlock hk ..)

theorem cbcEncryptMessage_alike (p : Params) (dlen : Nat) :
    Alike s s' (cbcEncryptMessage p dlen s) (cbcEncryptMessage p dlen s') := by
  refine unlessFaulted_alike h _ <| ite_alike (keyed_iff_of_agree h) (fun _ => raise_alike h _ _) fun hk =>
    ite_alike (ivValid_iff_of_agree h) (fun _ => raise_alike h _ _) fun hi =>
    ite_alike Iff.rfl (fun _ => raise_alike h _ _) fun _ => ?_
  have hk := not_not.mp hk
  dsimp only
  rw [← hinp, ← h.ctx.blockBytes hk]
  refine ite_alike Iff.rfl (fun _ => raise_alike h _ _) fun _ => ite_alike Iff.rfl (fun _ => raise_alike h _ _) fun _ => ?_
  exact respond_alike (h.withTransient ..) (h.ctx.cbcEncryptChain hk (not_not.mp hi) ..)

theorem cbcDecryptMessage_alike (p : Params) (dlen : Nat) :
    Alike s s' (cbcDecryptMessage p dlen s) (cbcDecryptMessage p dlen s') := by
  refine unlessFaulted_alike h _ <| ite_alike (keyed_iff_of_agree h) (fun _ => raise_alike h _ _) fun hk =>
    ite_alike (ivValid_iff_of_agree h) (fun _ => raise_alike h _ _) fun hi =>
    ite_alike Iff.rfl (fun _ => raise_alike h _ _) fun _ => ?_
  have hk := not_not.mp hk
  refine ite_alike (by rw [h.ctx.blockBytes hk]) (fun _ => ?_) fun _ => ?_
  · exact respond_alike h.setFaulted rfl
  · dsimp only
    rw [← hinp, ← h.ctx.blockBytes hk, ← h.ctx.cbcDecryptChain hk (not_not.mp hi) _ s.dp s'.dp]
    split
    · exact respond_alike (h.withTransient ..) rfl
    · exact ite_alike Iff.rfl (fun _ => respond_alike (h.withTransient ..) rfl) fun _ => respond_alike (h.withTransient ..) rfl

/-- Every command with its key and IV in the operand field is answered alike. -/
theorem exec_alike (i : Instr) (hlen : i.klen + i.ivlen ≤ s.inp.length) : Alike s s' (exec i s) (exec i s') := by
  cases i with
  | kinit klen blen => exact execKinit_alike h hinp klen blen
  | cinit klen blen ivlen => exact execCinit_alike h hinp klen blen ivlen hlen
  | encb dlen => exact execEncb_alike h hinp dlen
  | decb dlen => exact execDecb_alike h hinp dlen
  | cbce dlen => exact cbcEncryptMessage_alike h hinp Config.params dlen
  | cbcd dlen => exact cbcDecryptMessage_alike h hinp Config.params dlen
  | stat => exact execStat_alike h

end commands

/-- A frame taken is answered alike. -/
theorem runFrame_alike {s s' : State} (h : s.Agree s') (hinp : s.inp = s'.inp) {header : Header}
    (hlen : s.inp.length = header.operandLength) : Alike s s' (runFrame header s) (runFrame header s') := by
  unfold runFrame
  split
  next i hdecode =>
    refine exec_alike h hinp i ?_
    rw [hlen, ← operandLength_of_decodeHeader hdecode, Instr.operandLength]
    omega
  next => exact illegalCommand_alike h header.opc

/-- One response more is the new one. -/
theorem newResponses_of_append {s t : State} {r : Response} (h : t.responses = s.responses ++ [r]) : newResponses s t = [r] := by
  rw [newResponses, h, List.drop_left]

/-- Settles O49: a frame is answered alike by `runFrame_alike`; a reset and waiting answer nothing, and leave states that agree. -/
theorem unspecifiedStateIsUnobservable : Obligations.UnspecifiedStateIsUnobservable := by
  intro s s' h
  rcases port_cases s with ⟨header, operands, rest, hframe, -⟩ | ⟨-, rest, -, -, hreset⟩ | ⟨-, -, -, hwait⟩
  · have hframe' : FrameArrived s' header operands rest :=
      ⟨hframe.header_length, hframe.operands_length, h.arrivals ▸ hframe.arrived⟩
    have haccept : (s.accept operands rest).Agree (s'.accept operands rest) := ⟨rfl, h.faulted, h.ctx⟩
    obtain ⟨t, t', a, hrun, hrun', hr, hr', hagree⟩ := runFrame_alike haccept rfl hframe.operands_length
    exact ⟨t, t', (step_of_frame hframe).trans hrun, (step_of_frame hframe').trans hrun',
      (newResponses_of_append hr).trans (newResponses_of_append hr').symm, hagree⟩
  · refine ⟨_, _, step_of_reset hreset, step_of_reset (h.arrivals ▸ hreset), ?_, rfl, rfl, .refl _⟩
    exact (observation_of_same rfl).trans (observation_of_same rfl).symm
  · refine ⟨s, s', step_of_partial hwait, step_of_partial (h.arrivals ▸ hwait), ?_, h⟩
    exact (observation_of_same rfl).trans (observation_of_same rfl).symm

end Sys2Proof.Machine
end

section
/-! PROOFS. Frames at the command port (20_memory.md): a frame is consumed whole and answered once, the bytes of both
headers, and the parts of the operand field. -/

namespace Sys2Proof.Machine

/-! ## A frame is answered once, under its own OPC (R72, R84, R85) -/

/-- A decoded command has the opcode of its header (R86, R89). -/
theorem opc_of_decodeHeader {h : Header} {i : Instr} (hd : decodeHeader h = .instr i) : i.opc = h.opc := by
  unfold decodeHeader at hd
  split at hd
  case h_8 => cases hd
  all_goals
    next hopc =>
    obtain ⟨rfl, -⟩ := checked_instr hd
    exact BitVec.eq_of_toNat_eq hopc.symm

/-- However a command ends, its response carries the command's opcode (R85). -/
theorem Ends.answers_opc {s t : State} {i : Instr} (h : Ends s i t) :
    ∃ r, t.responses = s.responses ++ [r] ∧ r.opc = i.opc := by
  cases h <;> exact ⟨_, rfl, response_opc ..⟩

/-- A frame taken, a command's or not, takes nothing that is still to arrive, and is answered once, with its OPC (R72, R278). -/
theorem runFrame_answers_opc (h : Header) (s : State) :
    ∃ t r, runFrame h s = .next t ∧ t.arrivals = s.arrivals ∧ t.responses = s.responses ++ [r] ∧ r.opc = h.opc := by
  unfold runFrame
  split
  next i hdecode =>
    obtain ⟨t, hexec⟩ := exec_answers i s
    have hends := exec_ends hexec
    obtain ⟨harrivals, -⟩ := hends.port
    obtain ⟨r, hresponses, hopc⟩ := hends.answers_opc
    exact ⟨t, r, hexec, harrivals, hresponses, hopc.trans (opc_of_decodeHeader hdecode)⟩
  next =>
    obtain ⟨st, -, heq⟩ := illegalCommand_cases s h.opc
    exact ⟨_, _, heq, rfl, rfl, response_opc ..⟩

/-- Settles O3: a whole frame is taken and answered by `runFrame_answers_opc`; a partial frame is not received. -/
theorem frameConsumedWholeAndAnsweredOnce : Obligations.FrameConsumedWholeAndAnsweredOnce := by
  refine ⟨fun s header operands rest hframe => ?_, fun s bytes hpartial harrivals => ?_⟩
  · rw [step_of_frame hframe]
    exact runFrame_answers_opc (Header.ofBytes header) (s.accept operands rest)
  · exact step_of_partial (harrivals ▸ receive_partial bytes hpartial)

/-! ## Header bytes (R64, R81, R85) -/

/-- A word is assembled by putting its bytes one after another, the first at the top (R26). -/
theorem wordOf_eq_append (b0 b1 b2 b3 : Byte) : wordOf b0 b1 b2 b3 = b0 ++ b1 ++ b2 ++ b3 := by
  have hbit : ∀ i < 32, (wordOf b0 b1 b2 b3).getLsbD i = (b0 ++ b1 ++ b2 ++ b3).getLsbD i := by
    intro i hi
    simp only [wordOf, BitVec.getLsbD_or, BitVec.getLsbD_shiftLeft, BitVec.getLsbD_setWidth, BitVec.getLsbD_append]
    interval_cases i <;> simp
  exact BitVec.eq_of_getLsbD_eq hbit

/-- The fields of a header whose first word is assembled from four bytes (R81). -/
theorem ofWords_wordOf (b0 b1 b2 b3 : Byte) (w : Word) :
    Header.ofWords (wordOf b0 b1 b2 b3) w = { opc := b0, klen := b1, blen := b2, ivlen := b3, dlen := w } := by
  rw [Header.ofWords, byteK_wordOf_0, byteK_wordOf_1, byteK_wordOf_2, byteK_wordOf_3]

/-- Settles O11: each header word is assembled from its four bytes, or written as them, in order. -/
theorem headerBytesAreBigEndian : Obligations.HeaderBytesAreBigEndian := by
  refine ⟨fun b0 b1 b2 b3 b4 b5 b6 b7 => ?_, fun h => ?_, fun st opc detail out => ?_⟩
  · rw [← wordOf_eq_append]
    exact ofWords_wordOf b0 b1 b2 b3 (wordOf b4 b5 b6 b7)
  · rw [Header.bytes, Header.word0, bytesOfWord_wordOf]
    rfl
  · rw [Response.bytes, response, bytesOfWord_wordOf]

/-! ## The parts of IN (R61, R82) -/

/-- Two neighbouring slices make one (R27). -/
theorem slice_append_slice (s : List Byte) (a m n : Nat) : slice s a m ++ slice s (a + m) n = slice s a (m + n) := by
  rw [slice, slice, slice, List.take_add, List.drop_drop]

/-- Settles O12: the three operands are neighbouring slices, the first from 0 and the last to the end of IN. -/
theorem operandFieldIsKeyThenIvThenData : Obligations.OperandFieldIsKeyThenIvThenData := by
  intro i inp hlen
  rw [Instr.operandLength] at hlen
  simp only [keyOperand, ivOperand, dataOperand, length_slice]
  refine ⟨?_, by omega, by omega, by omega⟩
  have hkeyIv := slice_append_slice inp 0 i.klen i.ivlen
  have hall := slice_append_slice inp 0 (i.klen + i.ivlen) i.dlen
  rw [Nat.zero_add] at hkeyIv hall
  rw [hkeyIv, hall, slice_zero_of_length_le hlen.le]

end Sys2Proof.Machine
end

section
/-! PROOFS. The encoding of commands and responses (30_encoding.md): the decode function by opcode, decode and encode undo each
other, the frames of the assembler, the status codes, and the form of every response. -/

namespace Sys2Proof.Machine

/-! ## The decode function, opcode by opcode (R86 to R89) -/

section decodeHeader
variable {h : Header}

/-- A header whose must-be-zero fields are zero is the command (R87). -/
theorem checked_of_zero {zeros : List HeaderField} (hzero : h.firstNonZero zeros = none) (i : Instr) :
    h.checked zeros i = .instr i := by
  rw [Header.checked, hzero]

/-- A header with a must-be-zero field that is not zero is no command (R87). -/
theorem checked_of_nonZero {zeros : List HeaderField} (hnonzero : h.firstNonZero zeros ≠ none) (i : Instr) :
    ∃ why, h.checked zeros i = .illegal why := by
  obtain ⟨f, hf⟩ := Option.ne_none_iff_exists'.mp hnonzero
  exact ⟨.nonZeroField f, by rw [Header.checked, hf]⟩

/-! Each opcode of R86 checks the fields its command does not use, and reads the others. -/

theorem decodeHeader_kinit (hopc : h.opc = 1) :
    decodeHeader h = h.checked [.ivlen, .dlen] (.kinit h.klen.toNat h.blen.toNat) := by rw [decodeHeader, hopc]; rfl

theorem decodeHeader_cinit (hopc : h.opc = 2) :
    decodeHeader h = h.checked [.dlen] (.cinit h.klen.toNat h.blen.toNat h.ivlen.toNat) := by rw [decodeHeader, hopc]; rfl

theorem decodeHeader_encb (hopc : h.opc = 3) :
    decodeHeader h = h.checked [.klen, .blen, .ivlen] (.encb h.dlen.toNat) := by rw [decodeHeader, hopc]; rfl

theorem decodeHeader_decb (hopc : h.opc = 4) :
    decodeHeader h = h.checked [.klen, .blen, .ivlen] (.decb h.dlen.toNat) := by rw [decodeHeader, hopc]; rfl

theorem decodeHeader_cbce (hopc : h.opc = 5) :
    decodeHeader h = h.checked [.klen, .blen, .ivlen] (.cbce h.dlen.toNat) := by rw [decodeHeader, hopc]; rfl

theorem decodeHeader_cbcd (hopc : h.opc = 6) :
    decodeHeader h = h.checked [.klen, .blen, .ivlen] (.cbcd h.dlen.toNat) := by rw [decodeHeader, hopc]; rfl

theorem decodeHeader_stat (hopc : h.opc = 7) :
    decodeHeader h = h.checked [.klen, .blen, .ivlen, .dlen] .stat := by rw [decodeHeader, hopc]; rfl

/-- A reserved opcode is no command (R88). -/
theorem decodeHeader_reserved (hopc : h.opc = 0 ∨ 8 ≤ h.opc.toNat) : decodeHeader h = .illegal (.reservedOpcode h.opc) := by
  have hrange : h.opc.toNat = 0 ∨ 8 ≤ h.opc.toNat := hopc.imp_left (congrArg BitVec.toNat)
  unfold decodeHeader
  split
  case h_8 => rfl
  all_goals omega

/-- A reserved opcode, or a must-be-zero field that is not zero, decodes to no command (R87, R88). -/
theorem decodeHeader_illegal (hill : ReservedOrIllFormed h) : ∃ why, decodeHeader h = .illegal why := by
  rcases hill with hopc | hopc | ⟨hopc, hnonzero⟩ | ⟨hopc, hnonzero⟩ | ⟨hopc, hnonzero⟩ | ⟨hopc, hnonzero⟩
  · exact ⟨_, decodeHeader_reserved (.inl hopc)⟩
  · exact ⟨_, decodeHeader_reserved (.inr hopc)⟩
  · rw [decodeHeader_kinit hopc]
    exact checked_of_nonZero (by simp only [ne_eq, firstNonZero_cons]; tauto) _
  · rw [decodeHeader_cinit hopc]
    exact checked_of_nonZero (by simpa [firstNonZero_cons] using hnonzero) _
  · have hchecked : h.firstNonZero [.klen, .blen, .ivlen] ≠ none := by simp only [ne_eq, firstNonZero_cons]; tauto
    rcases hopc with hopc | hopc | hopc | hopc
    · exact decodeHeader_encb hopc ▸ checked_of_nonZero hchecked _
    · exact decodeHeader_decb hopc ▸ checked_of_nonZero hchecked _
    · exact decodeHeader_cbce hopc ▸ checked_of_nonZero hchecked _
    · exact decodeHeader_cbcd hopc ▸ checked_of_nonZero hchecked _
  · rw [decodeHeader_stat hopc]
    exact checked_of_nonZero (by simp only [ne_eq, firstNonZero_cons]; tauto) _

end decodeHeader

/-! ## Decode and encode undo each other (R81, R86, R89) -/

/-- The header of a well-formed command decodes to it: each field is read back, and the others are zero. -/
theorem decodeHeader_header {i : Instr} (hwf : i.WellFormed) : decodeHeader i.header = .instr i := by
  obtain ⟨hk, hb, hv, hd⟩ := (wellFormed_iff i).mp hwf
  have hklen : (BitVec.ofNat 8 i.klen).toNat = i.klen := Nat.mod_eq_of_lt hk
  have hblen : (BitVec.ofNat 8 i.blen).toNat = i.blen := Nat.mod_eq_of_lt hb
  have hivlen : (BitVec.ofNat 8 i.ivlen).toNat = i.ivlen := Nat.mod_eq_of_lt hv
  have hdlen : (BitVec.ofNat 32 i.dlen).toNat = i.dlen := Nat.mod_eq_of_lt hd
  cases i with
  | kinit => rw [decodeHeader_kinit rfl, checked_of_zero rfl, Instr.header, hklen, hblen]; rfl
  | cinit => rw [decodeHeader_cinit rfl, checked_of_zero rfl, Instr.header, hklen, hblen, hivlen]; rfl
  | encb => rw [decodeHeader_encb rfl, checked_of_zero rfl, Instr.header, hdlen]; rfl
  | decb => rw [decodeHeader_decb rfl, checked_of_zero rfl, Instr.header, hdlen]; rfl
  | cbce => rw [decodeHeader_cbce rfl, checked_of_zero rfl, Instr.header, hdlen]; rfl
  | cbcd => rw [decodeHeader_cbcd rfl, checked_of_zero rfl, Instr.header, hdlen]; rfl
  | stat => rw [decodeHeader_stat rfl, checked_of_zero rfl]

/-- The decoder on a frame reads its header and nothing else (R83, R89). -/
theorem decode_headerBytes_append (h : Header) (rest : List Byte) : decode (h.bytes ++ rest) = decodeHeader h := by
  have hlen : ¬ ((h.bytes ++ rest).take 8).length < 8 := by simp
  rw [decode, if_neg hlen, headerOfBytes_bytes]

/-- Settles O8: the decoder reads the header back from its bytes, and the header gives the command. -/
theorem decodeOfEncodeIsIdentity : Obligations.DecodeOfEncodeIsIdentity :=
  fun i operands hwf => (decode_headerBytes_append i.header operands).trans (decodeHeader_header hwf)

/-- What a header decodes to has that header: the fields the command does not use are zero (R86, R87). -/
theorem header_of_decodeHeader {h : Header} {i : Instr} (hd : decodeHeader h = .instr i) : i.header = h := by
  have hopc := opc_of_decodeHeader hd
  obtain ⟨opc, klen, blen, ivlen, dlen⟩ := h
  unfold decodeHeader at hd
  split at hd
  case h_8 => cases hd
  all_goals
    obtain ⟨rfl, hzero⟩ := checked_instr hd
    simp only [firstNonZero_cons] at hzero
    simp [Instr.header, hopc, Instr.klen, Instr.blen, Instr.ivlen, Instr.dlen, hzero]

/-- What a header decodes to can be written as a header: its lengths are field values (R81). -/
theorem wellFormed_of_decodeHeader {h : Header} {i : Instr} (hd : decodeHeader h = .instr i) : i.WellFormed := by
  have hk := h.klen.isLt
  have hb := h.blen.isLt
  have hv := h.ivlen.isLt
  have hl := h.dlen.isLt
  rw [wellFormed_iff]
  unfold decodeHeader at hd
  split at hd
  case h_8 => cases hd
  all_goals
    obtain ⟨rfl, -⟩ := checked_instr hd
    simp only [Instr.klen, Instr.blen, Instr.ivlen, Instr.dlen]
    omega

/-- Settles O9: the command has the header it was decoded from, and its encoding is that header's bytes. -/
theorem encodeOfDecodeIsIdentity : Obligations.EncodeOfDecodeIsIdentity :=
  fun _ _ hd => ⟨wellFormed_of_decodeHeader hd, header_of_decodeHeader hd, congrArg Header.bytes (header_of_decodeHeader hd)⟩

/-- Settles O7: the fields are bytes of the header words, and each opcode decodes by its own equation. -/
theorem decodeFollowsOpcodeMap : Obligations.DecodeFollowsOpcodeMap := by
  refine ⟨fun w0 w1 => ?_, fun h => ⟨fun hopc hv hd => ?_, fun hopc hd => ?_, fun hk hb hv => ?_, decodeHeader_illegal⟩⟩
  · exact ⟨byteK_eq_extractLsb' w0 0, byteK_eq_extractLsb' w0 1, byteK_eq_extractLsb' w0 2, byteK_eq_extractLsb' w0 3, rfl⟩
  · rw [decodeHeader_kinit hopc, checked_of_zero (by simp [firstNonZero_cons, hv, hd])]
  · rw [decodeHeader_cinit hopc, checked_of_zero (by simp [firstNonZero_cons, hd])]
  · have hzero : h.firstNonZero [.klen, .blen, .ivlen] = none := by simp [firstNonZero_cons, hk, hb, hv]
    refine ⟨fun hopc => ?_, fun hopc => ?_, fun hopc => ?_, fun hopc => ?_, fun hopc hd => ?_⟩
    · rw [decodeHeader_encb hopc, checked_of_zero hzero]
    · rw [decodeHeader_decb hopc, checked_of_zero hzero]
    · rw [decodeHeader_cbce hopc, checked_of_zero hzero]
    · rw [decodeHeader_cbcd hopc, checked_of_zero hzero]
    · rw [decodeHeader_stat hopc, checked_of_zero (by simp [firstNonZero_cons, hk, hb, hv, hd])]

/-- Settles O10: each frame is decoded by evaluation. -/
theorem sampleFramesDecode : Obligations.SampleFramesDecode := by
  unfold Obligations.SampleFramesDecode
  decide

/-! ## A frame that is no command (R87, R88, R278) -/

/-- Settles O6: the header decodes to no command, and with no fault the answer is ILLEGAL_COMMAND. -/
theorem illegalFrameChangesNothing : Obligations.IllegalFrameChangesNothing := by
  intro s header operands rest hframe hf hill
  obtain ⟨why, hdecode⟩ := decodeHeader_illegal hill
  have hclear : (s.accept operands rest).faulted = false := hf
  have hstep : step s = .next ((s.accept operands rest).respond .illegalCommand (Header.ofBytes header).opc 0 []) := by
    rw [step_of_frame hframe, runFrame, hdecode]
    exact unlessFaulted_of_clear hclear ..
  exact ⟨_, hstep, rfl, hf, rfl, rfl⟩

/-! ## The assembler (R92 to R94) -/

/-- The bytes of a header, one a field, then DLEN (R64, R81). -/
theorem headerBytes_eq (h : Header) : h.bytes = [h.opc, h.klen, h.blen, h.ivlen] ++ bytesOfWord h.dlen := by
  obtain ⟨-, hbytes, -⟩ := headerBytesAreBigEndian
  exact hbytes h

/-- The frame of a command is its header's bytes and its operands, and is refused where a field cannot count (R93). -/
theorem asmFrame_eq (i : Instr) (operands : List Byte) :
    asmFrame i operands = if i.klen ≤ 255 ∧ i.blen ≤ 255 ∧ i.ivlen ≤ 255 ∧ i.dlen ≤ 4294967295 then
      some ([i.opc, BitVec.ofNat 8 i.klen, BitVec.ofNat 8 i.blen, BitVec.ofNat 8 i.ivlen] ++
        bytesOfWord (BitVec.ofNat 32 i.dlen) ++ operands)
    else none := by
  have hwf := wellFormed_iff i
  rw [asmFrame, encodeFrame, encode, headerBytes_eq]
  exact if_congr (hwf.trans (by omega)) rfl rfl

/-- The frame of a command with KLEN, BLEN and IVLEN and no DATA: each field counts to 255 (R93). -/
theorem asmFrame_of_dlen_zero {i : Instr} (hd : i.dlen = 0) (operands : List Byte) :
    asmFrame i operands = if i.klen ≤ 255 ∧ i.ivlen ≤ 255 ∧ i.blen ≤ 255 then
      some ([i.opc, BitVec.ofNat 8 i.klen, BitVec.ofNat 8 i.blen, BitVec.ofNat 8 i.ivlen, 0, 0, 0, 0] ++ operands)
    else none := by
  rw [asmFrame_eq, hd]
  exact if_congr (by omega) rfl rfl

/-- The frame of a command with DATA only, which DLEN counts or which is refused (R93). -/
theorem asmFrame_of_data (i : Instr) {data : List Byte} (hk : i.klen = 0) (hb : i.blen = 0) (hv : i.ivlen = 0)
    (hd : i.dlen = data.length) :
    asmFrame i data = if data.length ≤ 4294967295 then
      some ([i.opc, 0, 0, 0] ++ bytesOfWord (BitVec.ofNat 32 data.length) ++ data)
    else none := by
  rw [asmFrame_eq, hk, hb, hv, hd]
  exact if_congr (by omega) rfl rfl

/-- A line that assembles to the frame of a command decodes to it. -/
theorem decode_of_asmFrame {i : Instr} {operands frame : List Byte} (h : asmFrame i operands = some frame) :
    decode frame = .instr i := by
  unfold asmFrame at h
  split at h
  next hwf =>
    cases h
    exact decodeOfEncodeIsIdentity i operands hwf
  next => cases h

/-- Settles O13: each form is the frame of its command, whose fields and refusals `asmFrame_eq` gives, or a raw header. -/
theorem assemblerWritesWholeFrames : Obligations.AssemblerWritesWholeFrames := by
  refine ⟨fun key bs => ?_, fun key iv bs => ?_, fun data hlen => ?_, fun data hlen => ?_, ?_,
    fun opc klen blen ivlen dlen bytes => ?_, fun line frame hline => ?_⟩
  · exact (asmFrame_of_dlen_zero rfl key).trans (if_congr (by simp [Instr.klen, Instr.ivlen, Instr.blen, asmBlockSize]) rfl rfl)
  · rw [List.append_assoc]
    exact asmFrame_of_dlen_zero rfl (key ++ iv)
  · exact ⟨(asmFrame_of_data (.encb _) rfl rfl rfl rfl).trans (if_pos hlen),
      (asmFrame_of_data (.decb _) rfl rfl rfl rfl).trans (if_pos hlen),
      (asmFrame_of_data (.cbce _) rfl rfl rfl rfl).trans (if_pos hlen),
      (asmFrame_of_data (.cbcd _) rfl rfl rfl rfl).trans (if_pos hlen)⟩
  · have hgt := Nat.not_le.mpr hlen
    exact ⟨(asmFrame_of_data (.encb _) rfl rfl rfl rfl).trans (if_neg hgt),
      (asmFrame_of_data (.decb _) rfl rfl rfl rfl).trans (if_neg hgt),
      (asmFrame_of_data (.cbce _) rfl rfl rfl rfl).trans (if_neg hgt),
      (asmFrame_of_data (.cbcd _) rfl rfl rfl rfl).trans (if_neg hgt)⟩
  · rfl
  · rw [assemble, headerBytes_eq]
  · have hdecode : ∀ {i operands}, assemble line = asmFrame i operands → decode frame = .instr i :=
      fun hform => decode_of_asmFrame (hform.symm.trans hline)
    exact ⟨fun _ _ e => hdecode (congrArg assemble e), fun _ _ _ e => hdecode (congrArg assemble e),
      fun _ e => hdecode (congrArg assemble e), fun _ e => hdecode (congrArg assemble e),
      fun _ e => hdecode (congrArg assemble e), fun _ e => hdecode (congrArg assemble e),
      fun e => hdecode (congrArg assemble e)⟩

/-- Settles O57: the lines of text by evaluation, the elided key and IV by the bytes of a `cinit` line. -/
theorem sampleLinesAssemble : Obligations.SampleLinesAssemble := by
  refine ⟨by decide +kernel, by decide +kernel, by decide +kernel, by decide +kernel, fun key iv hkey hiv => ?_,
    by decide +kernel⟩
  obtain ⟨-, hcinit, -⟩ := assemblerWritesWholeFrames
  simp [hcinit, hkey, hiv]

/-! ## Status codes (R90, R91) -/

/-- A status is read back from its code (R90). -/
theorem ofCode_code (st : Status) : Status.ofCode st.code = some st := by cases st <;> rfl

/-- A reserved code is no status (R91). -/
theorem ofCode_reserved {c : Byte} (hlow : 0x0A ≤ c.toNat) (hhigh : c.toNat ≤ 0xFE) : Status.ofCode c = none := by
  unfold Status.ofCode
  split
  case h_12 => rfl
  all_goals omega

/-- Settles O14: the codes by definition; no status has a reserved code, for it would be read back from it. -/
theorem reservedStatusCodesMeanNothing : Obligations.ReservedStatusCodesMeanNothing := by
  refine ⟨rfl, rfl, rfl, rfl, rfl, rfl, rfl, rfl, rfl, rfl, rfl, fun st opc detail out => ?_, ofCode_code,
    fun c hlow hhigh => ⟨ofCode_reserved hlow hhigh, ?_⟩⟩
  · exact (byteK_eq_extractLsb' _ 0).symm.trans (response_statusCode st opc detail out)
  · rintro st rfl
    cases (ofCode_code st).symm.trans (ofCode_reserved hlow hhigh)

/-! ## The form of every response (R85, R91) -/

/-- A response is well-formed if OLEN can count its result, DETAIL comes with PADDING_ERROR only, and a result with OK, or with
FAULTED to a STAT. -/
theorem response_wellFormed {st : Status} {opc detail : Byte} {out : List Byte} (hlen : out.length < 4294967296)
    (hdetail : detail ≠ 0 → st = .paddingError)
    (hresult : out ≠ [] → st = .ok ∨ (st = .faulted ∧ opc = 0x07 ∧ out.length = 4)) :
    (response st opc detail out).WellFormed where
  status := ⟨st, by rw [response_statusCode, ofCode_code]⟩
  reserved := response_reserved ..
  olen := response_r1 _ _ _ _ hlen
  detail hd := by
    rw [response_detail] at hd
    rw [response_statusCode, hdetail hd]
  result ho := by
    rw [response_statusCode, response_opc]
    exact (hresult ho).imp (congrArg Status.code) (And.imp_left (congrArg Status.code))

/-- A response with no result and no detail is well-formed, whatever its status. -/
theorem response_error_wellFormed (st : Status) (opc : Byte) : (response st opc 0 []).WellFormed :=
  response_wellFormed (by decide) (by simp) (by simp)

/-- A response with OK is well-formed if OLEN can count its result. -/
theorem response_ok_wellFormed (opc : Byte) {out : List Byte} (hlen : out.length < 4294967296) :
    (response .ok opc 0 out).WellFormed :=
  response_wellFormed hlen (by simp) fun _ => .inl rfl

/-- A block is short enough for OLEN: CTX.nb has four bits (R36). -/
theorem length_block_lt {c : Context} {out : List Byte} (hlen : out.length = 4 * c.blockWords) : out.length < 4294967296 := by
  have hnb : c.blockWords < 16 := c.nb.isLt
  omega

/-- A message within MAX_MSG_LEN is short enough for OLEN (R20). -/
theorem length_message_lt {out : List Byte} (hlen : out.length ≤ Config.params.maxMsgLen) : out.length < 4294967296 := by
  have hbound := Config.maxMsgLenAbove32.isLt
  have hmax : Config.params.maxMsgLen = 32 + Config.maxMsgLenAbove32.val := rfl
  omega

/-- The chained encryption gives the whole blocks of the message and no more (R232). -/
theorem length_cbcEncryptChain (c : Context) (p : List Byte) (d : Datapath) :
    (cbcEncryptChain c p d).1.length = p.length / c.blockBytes * c.blockBytes := by
  refine forUpTo_induction (fun j (acc : List Byte × Datapath) => acc.1.length = j * c.blockBytes)
    (cbcEncryptTurn c p) _ _ (Nat.zero_mul _).symm ?_
  intro j acc _ ih
  rw [cbcEncryptTurn, List.length_append, length_encryptBlock, ih]
  exact (Nat.succ_mul ..).symm

/-- `t` has emitted one response more than `s`, a well-formed one. -/
def AnswersWellFormed (s t : State) : Prop := ∃ r, t.responses = s.responses ++ [r] ∧ r.WellFormed

/-- Every command answers with a well-formed response (R85, R91). -/
theorem exec_answersWellFormed {i : Instr} {s t : State} (h : exec i s = .next t) : AnswersWellFormed s t := by
  cases i with
  | kinit =>
    rcases execKinit_cases h with ⟨st, -, rfl⟩ | ⟨-, -, -, rfl⟩
    · exact ⟨_, rfl, response_error_wellFormed ..⟩
    · exact ⟨_, rfl, response_error_wellFormed ..⟩
  | cinit =>
    rcases execCinit_cases h with ⟨st, -, rfl⟩ | ⟨-, -, -, -, rfl⟩
    · exact ⟨_, rfl, response_error_wellFormed ..⟩
    · exact ⟨_, rfl, response_error_wellFormed ..⟩
  | encb =>
    rcases execEncb_cases h with ⟨st, -, rfl⟩ | ⟨-, -, -, rfl⟩
    · exact ⟨_, rfl, response_error_wellFormed ..⟩
    · exact ⟨_, rfl, response_ok_wellFormed _ (length_block_lt (length_encryptBlock ..))⟩
  | decb =>
    rcases execDecb_cases h with ⟨st, -, rfl⟩ | ⟨-, -, -, rfl⟩
    · exact ⟨_, rfl, response_error_wellFormed ..⟩
    · exact ⟨_, rfl, response_ok_wellFormed _ (length_block_lt (length_decryptBlock ..))⟩
  | cbce =>
    rcases cbcEncryptMessage_cases h with ⟨st, -, rfl⟩ | ⟨-, -, -, -, padded, -, hlen, -, rfl⟩
    · exact ⟨_, rfl, response_error_wellFormed ..⟩
    · refine ⟨_, rfl, response_ok_wellFormed _ (length_message_lt (le_trans ?_ hlen))⟩
      rw [length_cbcEncryptChain]
      exact Nat.div_mul_le_self ..
  | cbcd =>
    rcases cbcDecryptMessage_cases h with ⟨st, -, rfl⟩ | ⟨-, -, -, -, ⟨-, rfl⟩ | ⟨-, s1, q, rfl, -, hend⟩⟩
    · exact ⟨_, rfl, response_error_wellFormed ..⟩
    · exact ⟨_, rfl, response_error_wellFormed ..⟩
    · rcases hend with ⟨e, -, rfl⟩ | ⟨m, -, -, rfl⟩ | ⟨m, -, hlen, rfl⟩
      · exact ⟨_, rfl, response_wellFormed (by decide) (fun _ => rfl) (by simp)⟩
      · exact ⟨_, rfl, response_error_wellFormed ..⟩
      · exact ⟨_, rfl, response_ok_wellFormed _ (length_message_lt hlen)⟩
  | stat =>
    rw [exec, execStat_eq] at h
    cases h
    have hlen : s.statPayload.length = 4 := by unfold State.statPayload; split <;> rfl
    refine ⟨_, rfl, response_wellFormed (by omega) (by simp) fun _ => ?_⟩
    split
    · exact .inr ⟨rfl, rfl, hlen⟩
    · exact .inl rfl

/-- So does a frame that is no command (R278). -/
theorem runFrame_answersWellFormed {h : Header} {s t : State} (hrun : runFrame h s = .next t) : AnswersWellFormed s t := by
  unfold runFrame at hrun
  split at hrun
  · exact exec_answersWellFormed hrun
  · obtain ⟨st, -, heq⟩ := illegalCommand_cases s h.opc
    cases heq.symm.trans hrun
    exact ⟨_, rfl, response_error_wellFormed ..⟩

/-- Settles O15: a frame is answered by one well-formed response; a reset and waiting answer nothing. -/
theorem everyEmittedResponseIsWellFormed : Obligations.EveryEmittedResponseIsWellFormed := by
  intro s t hstep r hr
  rcases port_cases s with ⟨header, operands, rest, hframe, -⟩ | ⟨-, rest, -, -, hreset⟩ | ⟨-, -, -, hwait⟩
  · rw [step_of_frame hframe] at hstep
    obtain ⟨a, hresponses, hwf⟩ := runFrame_answersWellFormed hstep
    rw [accept_responses] at hresponses
    rw [newResponses_of_append hresponses, List.mem_singleton] at hr
    exact hr ▸ hwf
  · cases (step_of_reset hreset).symm.trans hstep
    have hnone : newResponses s (s.applyReset rest) = [] := observation_of_same rfl
    simp [hnone] at hr
  · cases (step_of_partial hwait).symm.trans hstep
    have hnone : newResponses s s = [] := observation_of_same rfl
    simp [hnone] at hr

end Sys2Proof.Machine
end

section
/-! PROOFS. The arithmetic of GF(2^8) and the tables of the ROM (40_gf_tables.md): gmul by logarithms is the product of polynomials,
because both add the exponents of powers of 3; the tables are products and inverses. -/

namespace Sys2Proof.Machine

open Sys2Proof.Machine.Rom

/-! ## The powers of the generator (R29, R111, R112) -/

/-- Multiplication by the generator 3 = X + 1. -/
def timesThree (x : Byte) : Byte := xtime x ^^^ x

/-- 3^n, read from ALOG as gmul and ginv read it: the exponent counts modulo 255 (R113, R115). -/
def threePow (n : Nat) : Byte := ALOG (BitVec.ofNat 8 (n % 255))

theorem ALOG_eq_timesThree : ∀ i : Byte, i ≠ 0 → ALOG i = timesThree (ALOG (i - 1)) := by decide +kernel
theorem ALOG_ne_zero : ∀ i : Byte, ALOG i ≠ 0 := by decide +kernel
theorem LOG_ALOG : ∀ i : Byte, i ≠ 255 → LOG (ALOG i) = i := by decide +kernel
theorem ALOG_LOG : ∀ x : Byte, x ≠ 0 → ALOG (LOG x) = x := by decide +kernel

theorem threePow_zero : threePow 0 = 1 := by decide +kernel
theorem threePow_255 : threePow 255 = 1 := threePow_zero
theorem threePow_ne_zero (n : Nat) : threePow n ≠ 0 := ALOG_ne_zero _

/-- ALOG[255] = ALOG[0]: the exponent 255 may be read unreduced. -/
theorem threePow_eq_ALOG {n : Nat} (hn : n ≤ 255) : threePow n = ALOG (BitVec.ofNat 8 n) := by
  rcases Nat.lt_or_eq_of_le hn with h | rfl
  · rw [threePow, Nat.mod_eq_of_lt h]
  · decide +kernel

theorem threePow_mod (n : Nat) : threePow (n % 255) = threePow n := by rw [threePow, Nat.mod_mod, threePow]

/-- The recurrence of ALOG goes round: after the exponent 254 comes 0. -/
theorem threePow_succ (n : Nat) : threePow (n + 1) = timesThree (threePow n) := by
  have hr : n % 255 < 255 := Nat.mod_lt n (by decide)
  have hne : BitVec.ofNat 8 (n % 255 + 1) ≠ 0 := by bv_omega
  have hpred : BitVec.ofNat 8 (n % 255 + 1) - 1 = BitVec.ofNat 8 (n % 255) := by bv_omega
  rw [← threePow_mod, ← Nat.mod_add_mod, threePow_mod, threePow_eq_ALOG hr, ALOG_eq_timesThree _ hne, hpred, threePow]

theorem LOG_threePow (n : Nat) : (LOG (threePow n)).toNat = n % 255 := by
  have hr : n % 255 < 255 := Nat.mod_lt n (by decide)
  rw [threePow, LOG_ALOG _ (by bv_omega), BitVec.toNat_ofNat, Nat.mod_eq_of_lt (by omega)]

/-- Every byte but 0 is a power of 3. -/
theorem threePow_LOG {x : Byte} (hx : x ≠ 0) : threePow (LOG x).toNat = x := by
  rw [threePow_eq_ALOG (by omega), BitVec.ofNat_toNat, BitVec.setWidth_eq, ALOG_LOG x hx]

/-! ## gmul and ginv by exponents (R113, R115) -/

theorem gmul_zero_left (b : Byte) : gmul 0 b = 0 := if_pos (.inl rfl)
theorem gmul_zero_right (a : Byte) : gmul a 0 = 0 := if_pos (.inr rfl)

theorem gmul_threePow (m n : Nat) : gmul (threePow m) (threePow n) = threePow (m + n) := by
  rw [gmul, if_neg (not_or.mpr ⟨threePow_ne_zero m, threePow_ne_zero n⟩), LOG_threePow, LOG_threePow, ← Nat.add_mod, threePow]

theorem gmul_comm (a b : Byte) : gmul a b = gmul b a := by
  simp only [gmul, or_comm, Nat.add_comm]

theorem gmul_one_left (x : Byte) : gmul 1 x = x := by
  rcases eq_or_ne x 0 with rfl | hx
  · exact gmul_zero_right 1
  · rw [← threePow_LOG hx, ← threePow_zero, gmul_threePow, Nat.zero_add]

theorem gmul_assoc (a b c : Byte) : gmul (gmul a b) c = gmul a (gmul b c) := by
  rcases eq_or_ne a 0 with rfl | ha
  · simp only [gmul_zero_left]
  rcases eq_or_ne b 0 with rfl | hb
  · simp only [gmul_zero_left, gmul_zero_right]
  rcases eq_or_ne c 0 with rfl | hc
  · simp only [gmul_zero_right]
  rw [← threePow_LOG ha, ← threePow_LOG hb, ← threePow_LOG hc]
  simp only [gmul_threePow, Nat.add_assoc]

theorem ginv_of_ne_zero {x : Byte} (hx : x ≠ 0) : ginv x = threePow (255 - (LOG x).toNat) := if_neg hx

/-- The exponents of x and of its inverse add up to 255. -/
theorem gmul_ginv {x : Byte} (hx : x ≠ 0) : gmul x (ginv x) = 1 := by
  calc gmul x (ginv x)
      = gmul (threePow (LOG x).toNat) (threePow (255 - (LOG x).toNat)) := by rw [threePow_LOG hx, ginv_of_ne_zero hx]
    _ = threePow 255 := by rw [gmul_threePow, Nat.add_sub_cancel' (by omega)]
    _ = 1 := threePow_255

/-! ## The product of polynomials (R114) -/

theorem repeat_xtime_xor (n : Nat) (x y : Byte) :
    Nat.repeat xtime n (x ^^^ y) = Nat.repeat xtime n x ^^^ Nat.repeat xtime n y := by
  induction n with
  | zero => rfl
  | succ n ih => simp only [Nat.repeat, ih, xtime_xor]

theorem repeat_xtime_xtime (n : Nat) (x : Byte) : Nat.repeat xtime n (xtime x) = xtime (Nat.repeat xtime n x) := by
  induction n with
  | zero => rfl
  | succ n ih => simp only [Nat.repeat, ih]

theorem xtime_zero : xtime 0 = 0 := by decide

theorem polyMul_xor_left (a a' b : Byte) (n : Nat) : polyMul (a ^^^ a') b n = polyMul a b n ^^^ polyMul a' b n := by
  induction n with
  | zero => exact BitVec.xor_self.symm
  | succ n ih =>
    rw [polyMul, polyMul, polyMul, ih, repeat_xtime_xor]
    split
    · ac_rfl
    · simp

theorem polyMul_xtime_left (a b : Byte) (n : Nat) : polyMul (xtime a) b n = xtime (polyMul a b n) := by
  induction n with
  | zero => exact xtime_zero.symm
  | succ n ih => rw [polyMul, polyMul, ih, repeat_xtime_xtime, xtime_xor, apply_ite xtime, xtime_zero]

theorem polyMul_timesThree_left (a b : Byte) (n : Nat) : polyMul (timesThree a) b n = timesThree (polyMul a b n) := by
  rw [timesThree, polyMul_xor_left, polyMul_xtime_left, timesThree]

theorem polyMul_zero_left (b : Byte) (n : Nat) : polyMul 0 b n = 0 := by
  simpa using polyMul_xor_left 0 0 b n

theorem polyMul_zero_right (a : Byte) (n : Nat) : polyMul a 0 n = 0 := by
  induction n with
  | zero => rfl
  | succ n ih =>
    rw [polyMul, ih, if_neg (by simp)]
    rfl

theorem polyMul_one_left : ∀ b : Byte, polyMul 1 b 8 = b := by decide +kernel

/-- Each factor 3 of the left operand comes out of the product. -/
theorem polyMul_threePow (m n : Nat) : polyMul (threePow m) (threePow n) 8 = threePow (m + n) := by
  induction m with
  | zero => rw [threePow_zero, polyMul_one_left, Nat.zero_add]
  | succ m ih => rw [threePow_succ, polyMul_timesThree_left, ih, ← threePow_succ, Nat.succ_add_eq_add_succ, Nat.add_assoc]

theorem gmul_eq_polyMul (a b : Byte) : gmul a b = polyMul a b 8 := by
  rcases eq_or_ne a 0 with rfl | ha
  · rw [gmul_zero_left, polyMul_zero_left]
  rcases eq_or_ne b 0 with rfl | hb
  · rw [gmul_zero_right, polyMul_zero_right]
  rw [← threePow_LOG ha, ← threePow_LOG hb, gmul_threePow, polyMul_threePow]

theorem gmul_xor_right (a b c : Byte) : gmul a (b ^^^ c) = gmul a b ^^^ gmul a c := by
  simp only [gmul_comm a, gmul_eq_polyMul, polyMul_xor_left]

/-- Settles O52: both products add the exponents of powers of 3, and the laws follow from the form each is easier to read in. -/
theorem gmulIsPolynomialProduct : Obligations.GmulIsPolynomialProduct :=
  ⟨gmul_eq_polyMul, gmul_comm, gmul_assoc, gmul_xor_right, gmul_02⟩

/-- Settles O53: the inverse by its exponent, the examples by evaluation. -/
theorem ginvInvertsGmul : Obligations.GinvInvertsGmul :=
  ⟨rfl, by decide +kernel, by decide +kernel, fun _ hx => ⟨if_neg hx, gmul_ginv hx⟩⟩

/-! ## The byte tables (R111, R112, R116 to R118) -/

/-- Multiplication by 3 as R111 writes it: a 9-bit sum, reduced by 0x11B if it overflows. -/
theorem timesThree_as_nine_bits (p : Byte) :
    let q : BitVec 9 := (p.setWidth 9 <<< 1) ^^^ p.setWidth 9
    (timesThree p).setWidth 9 = if q.getLsbD 8 then q ^^^ 0x11B else q := by
  revert p
  decide +kernel

theorem S_eq_aff_ginv : ∀ i : Byte, S i = aff (ginv i) := by decide +kernel

theorem RCON_succ : ∀ t ∈ List.range 29, RCON (t + 1) = gmul 2 (RCON t) := by decide +kernel

/-- Settles O50: the recurrences and inverses by the laws of each table, the listed entries by evaluation. -/
theorem byteTablesFollowTheirRules : Obligations.ByteTablesFollowTheirRules := by
  have hrecurrence (i : Byte) (hi : i ≠ 0) :
      let q : BitVec 9 := (((ALOG (i - 1)).setWidth 9) <<< 1) ^^^ ((ALOG (i - 1)).setWidth 9)
      (ALOG i).setWidth 9 = if q.getLsbD 8 then q ^^^ 0x11B else q := by
    rw [ALOG_eq_timesThree i hi]
    exact timesThree_as_nine_bits _
  exact ⟨rfl, rfl, hrecurrence, rfl, rfl, rfl, LOG_ALOG, rfl, rfl, rfl, S_eq_aff_ginv, SI_S, S_SI, rfl, rfl, rfl, RCON_succ, rfl⟩

/-! ## The word tables (R120 to R127) -/

/-- The forward tables spread the substituted byte over the lanes by the rows of G (R121). -/
theorem T_eq_mul4 (i : Byte) :
    T1 i = mul4 (S i) (G 0) ∧ T2 i = mul4 (S i) (G 1) ∧ T3 i = mul4 (S i) (G 2) ∧ T4 i = mul4 (S i) (G 3) := by
  simp only [mul4, G, gmul_comm (S i), gmul_one_left, T1_lanes, T2_lanes, T3_lanes, T4_lanes, and_self]

/-- The tables of InvMixColumn spread the byte itself by the rows of IG (R125). -/
theorem U_eq_mul4 (i : Byte) :
    U1 i = mul4 i (IG 0) ∧ U2 i = mul4 i (IG 1) ∧ U3 i = mul4 i (IG 2) ∧ U4 i = mul4 i (IG 3) := by
  simp only [mul4, IG, gmul_comm i, U1_lanes, U2_lanes, U3_lanes, U4_lanes, and_self]

/-- Settles O51: the inverse tables are those of InvMixColumn after SI, and the lanes are rotations by definition. -/
theorem wordTablesFollowTheirRules : Obligations.WordTablesFollowTheirRules := by
  intro i
  obtain ⟨hT1, hT2, hT3, hT4⟩ := T_eq_mul4 i
  obtain ⟨hU1, hU2, hU3, hU4⟩ := U_eq_mul4 i
  obtain ⟨hT5, hT6, hT7, hT8⟩ := U_eq_mul4 (SI i)
  exact ⟨hT1, hT2, hT3, hT4, (T5_of_U1 i).trans hT5, (T6_of_U2 i).trans hT6, (T7_of_U3 i).trans hT7, (T8_of_U4 i).trans hT8,
    hU1, hU2, hU3, hU4, rfl, rfl, rfl, rfl, rfl, rfl, rfl, rfl, rfl⟩

/-- Settles O54: the four columns of lanes are added lane by lane. -/
theorem forwardTablesComputeMixColumn : Obligations.ForwardTablesComputeMixColumn := by
  intro a0 a1 a2 a3
  rw [T1_lanes, T2_lanes, T3_lanes, T4_lanes, wordOf_xor, wordOf_xor, wordOf_xor]

/-- InvMixColumnWord reads the tables of InvMixColumn at the bytes of its column (R127). -/
theorem invMixColumnWord_wordOf (x0 x1 x2 x3 : Byte) :
    invMixColumnWord (wordOf x0 x1 x2 x3) = U1 x0 ^^^ U2 x1 ^^^ U3 x2 ^^^ U4 x3 := by
  rw [invMixColumnWord, byteK_wordOf_0, byteK_wordOf_1, byteK_wordOf_2, byteK_wordOf_3]

/-- Settles O55: the table form lane by lane is the InvMixColumn matrix; linearity and the two inverse facts are laws of the tables. -/
theorem inverseTablesComputeInvMixColumn : Obligations.InverseTablesComputeInvMixColumn := by
  refine ⟨fun x0 x1 x2 x3 => ?_, invMixColumnWord_wordOf, inverse_tables, invMixColumnWord_xor, invMixColumnWord_forward⟩
  rw [invMixColumnWord_wordOf, U1_lanes, U2_lanes, U3_lanes, U4_lanes, wordOf_xor, wordOf_xor, wordOf_xor]

end Sys2Proof.Machine
end

section
/-! PROOFS. The key schedule (42_key_schedule.md): the rows of Ke and Kd, what they depend on, and the command KINIT. -/

namespace Sys2Proof.Machine

/-! ## The rows of Ke and Kd (R172, R173, R175) -/

/-- Settles O18: the invariant of the expansion loop, read at its end. -/
theorem encryptionKeysAreExpandedKey : Obligations.EncryptionKeysAreExpandedKey :=
  fun _ _ key d hb hk _ _ _ hr hc => roundKey_scheduleFor_ke hb hk key d hr hc

section mirrored
variable {nb nr : Nat} {ke kd : RoundKeys} (h : MirroredKeys nb nr ke kd) {c : Nat} (hc : c < nb)
include h hc

theorem MirroredKeys.first_row : roundKey kd 0 c = roundKey ke nr c := by
  rw [h 0 c (Nat.zero_le _) hc, if_neg (by omega), Nat.sub_zero]

theorem MirroredKeys.last_row : roundKey kd nr c = roundKey ke 0 c := by
  rw [h nr c le_rfl hc, if_neg (by omega), Nat.sub_self]

theorem MirroredKeys.middle_row {r : Nat} (hr : 1 ≤ r) (hr' : r ≤ nr - 1) :
    roundKey kd r c = invMixColumnWord (roundKey ke (nr - r) c) := by
  rw [h r c (by omega) hc, if_pos ⟨hr, hr'⟩]

end mirrored

/-- Settles O19: the two arrays of a schedule are mirrored, taken apart into the end rows and the middle rows. -/
theorem decryptionKeysMirrorEncryptionKeys : Obligations.DecryptionKeysMirrorEncryptionKeys := by
  intro bs ks key d hb hk _ c hc
  have h := mirroredKeys_scheduleFor hb hk key d
  exact ⟨h.first_row hc, h.last_row hc, fun r => h.middle_row hc⟩

/-- Settles O20: both arrays are given by the expanded key, which has no datapath in it. -/
theorem scheduleDependsOnKeyAlone : Obligations.ScheduleDependsOnKeyAlone := by
  intro bs ks key d d' hb hk _ r c hr hc
  obtain ⟨hke, hkd⟩ := scheduleFor_sameRoundKeys hb hk key d d' le_rfl le_rfl
  exact ⟨hke r c hr hc, hkd r c hr hc⟩

/-! ## KINIT, check by check (R160, R275) -/

section kinit
variable {klen blen : Nat} {s : State}

theorem execKinit_badBlockSize (hf : s.faulted = false) (hb : ¬ LegalSize blen) :
    execKinit klen blen s = .next (s.respond .badBlockSize 0x01 0 []) := by
  rw [execKinit, unlessFaulted_of_clear hf, if_pos hb, raise_eq]

theorem execKinit_badKeyLength (hf : s.faulted = false) (hb : LegalSize blen) (hk : ¬ LegalSize klen) :
    execKinit klen blen s = .next (s.respond .badKeyLength 0x01 0 []) := by
  rw [execKinit, unlessFaulted_of_clear hf, if_neg (not_not.mpr hb), if_pos hk, raise_eq]

theorem execKinit_ok (hf : s.faulted = false) (hb : LegalSize blen) (hk : LegalSize klen) :
    execKinit klen blen s = .next (State.respond { s with
      ctx := (s.ctx.loadSchedule blen klen (scheduleFor (keyOperand s.inp klen) blen klen s.dp)).markKeyed
      dp := scheduleFor (keyOperand s.inp klen) blen klen s.dp } .ok 0x01 0 []) := by
  rw [execKinit, unlessFaulted_of_clear hf, if_neg (not_not.mpr hb), if_neg (not_not.mpr hk)]
  rfl

end kinit

/-- Settles O16: one lemma a check; of the success state every field is as its update says. -/
theorem kinitLoadsScheduleOrFails : Obligations.KinitLoadsScheduleOrFails :=
  fun _ _ _ => ⟨fun hf => unlessFaulted_of_faulted hf .., execKinit_badBlockSize, execKinit_badKeyLength, fun hf hb hk =>
    ⟨_, execKinit_ok hf hb hk, rfl, rfl, rfl, rfl, rfl, rfl, rfl, rfl, hf, rfl⟩⟩

end Sys2Proof.Machine
end

section
/-! PROOFS. EncryptBlock and ENCB (43_block_encrypt.md): the table rounds are the rounds of the Rijndael cipher, column by column, and
the command ENCB check by check. -/

namespace Sys2Proof.Machine

open Sys2Proof.Machine.Rom

/-! ## What EncryptBlock reads and writes, and the offsets (R191, R195, R211) -/

/-- Settles O25: its result is that of any datapath with the same meaningful keys, and each of its loops keeps all but t and a. -/
theorem encryptBlockReadsAndWritesOnlyItsOwn : Obligations.EncryptBlockReadsAndWritesOnlyItsOwn :=
  fun nb nr ke _ block d d' hk =>
    ⟨length_encryptBlock nb nr ke block d, encryptBlock_congr hk block d d', sameButTA_encryptBlock nb nr ke block d⟩

/-- Settles O27: the two tables as they stand, and offsets that add up to nb. -/
theorem shiftOffsetsOfThreeBlockSizes : Obligations.ShiftOffsetsOfThreeBlockSizes := by
  refine ⟨rfl, rfl, rfl, rfl, rfl, rfl, fun nb hnb => ?_⟩
  obtain ⟨h1, h2, h3⟩ := offsets_add hnb
  exact ⟨Nat.eq_sub_of_add_eq h1, Nat.eq_sub_of_add_eq h2, Nat.eq_sub_of_add_eq h3⟩

/-! ## The columns of the cipher's matrix as words (R123, R196) -/

/-- Column c of a matrix as a word, row 0 the most significant byte. -/
def CipherMatrix.column (m : CipherMatrix) (c : Nat) : Word := wordOf (m 0 c) (m 1 c) (m 2 c) (m 3 c)

theorem column_loadMatrix (block : List Byte) (c : Nat) : CipherMatrix.column (loadMatrix block) c = memRead4 block (4 * c) := rfl

theorem column_addRoundKey (ke : RoundKeys) (r : Nat) (m : CipherMatrix) (c : Nat) :
    CipherMatrix.column (addRoundKey ke r m) c = m.column c ^^^ roundKey ke r c := by
  conv_rhs => rw [← wordOf_byteK (roundKey ke r c)]
  exact (wordOf_xor ..).symm

/-- SubBytes, ShiftRows and MixColumns on a column are four table lookups (R123). -/
theorem column_mixColumns_shiftRows_subBytes (o : ShiftOffsets) (nb : Nat) (m : CipherMatrix) (c : Nat) :
    CipherMatrix.column (mixColumns (shiftRows o nb (subBytes m))) c =
      T1 (m 0 ((c + o.row 0) % nb)) ^^^ T2 (m 1 ((c + o.row 1) % nb)) ^^^ T3 (m 2 ((c + o.row 2) % nb)) ^^^
        T4 (m 3 ((c + o.row 3) % nb)) :=
  (forwardTablesComputeMixColumn ..).symm

/-- The bytes of a matrix are those of its columns. -/
theorem matrixBytes_eq (nb : Nat) (m : CipherMatrix) :
    matrixBytes nb m = (List.range nb).flatMap fun c => bytesOfWord (m.column c) := by
  simp only [matrixBytes, bytesOfWord, CipherMatrix.column, byteK_wordOf_0, byteK_wordOf_1, byteK_wordOf_2, byteK_wordOf_3]

/-! ## The table rounds are the cipher's rounds (R192 to R194, R196) -/

/-- The final round's result bytes are SubBytes and ShiftRows of the state and the last round key (R194). -/
theorem encryptFinalBytes_eq (nb nr : Nat) (ke : RoundKeys) (d : Datapath) (i : Nat) :
    encryptFinalBytes nb nr ke d i = bytesOfWord (subShiftWord nb d i ^^^ roundKey ke nr i) := by
  simp only [encryptFinalBytes, bytesOfWord, subShiftWord, byteK_xor, byteK_wordOf_0, byteK_wordOf_1, byteK_wordOf_2, byteK_wordOf_3]

/-- The middle rounds of the cipher, the first key addition before them (R196). -/
def cipherAfter (nb : Nat) (ke : RoundKeys) (block : List Byte) (k : Nat) : CipherMatrix :=
  forRange 1 k (fun r m => addRoundKey ke r (mixColumns (shiftRows (encryptOffsets nb) nb (subBytes m))))
    (addRoundKey ke 0 (loadMatrix block))

section cipher
variable (nb nr : Nat) (ke : RoundKeys) (block : List Byte) (k : Nat)

theorem rijndaelCipher_eq : rijndaelCipher nb nr ke block =
    matrixBytes nb (addRoundKey ke nr (shiftRows (encryptOffsets nb) nb (subBytes (cipherAfter nb ke block (nr - 1))))) := rfl

theorem cipherAfter_zero : cipherAfter nb ke block 0 = addRoundKey ke 0 (loadMatrix block) := rfl

theorem cipherAfter_succ : cipherAfter nb ke block (k + 1) =
    addRoundKey ke (k + 1) (mixColumns (shiftRows (encryptOffsets nb) nb (subBytes (cipherAfter nb ke block k)))) :=
  forRange_one_succ ..

end cipher

/-- The state words t[0 .. nb) are the columns of the matrix. -/
def HoldsMatrix (nb : Nat) (d : Datapath) (m : CipherMatrix) : Prop := ∀ c, c < nb → d.getT c = m.column c

section holds
variable {nb : Nat} {d : Datapath} {m : CipherMatrix} (h : HoldsMatrix nb d m) {c : Nat} (hc : c < nb)
include h hc

/-- The bytes that encryption gathers for word c are those ShiftRows moves to column c. -/
theorem HoldsMatrix.gathered_bytes :
    byteK (d.getT c) 0 = m 0 ((c + (encryptOffsets nb).row 0) % nb) ∧
    byteK (d.getT ((c + (encryptOffsets nb).s1) % nb)) 1 = m 1 ((c + (encryptOffsets nb).row 1) % nb) ∧
    byteK (d.getT ((c + (encryptOffsets nb).s2) % nb)) 2 = m 2 ((c + (encryptOffsets nb).row 2) % nb) ∧
    byteK (d.getT ((c + (encryptOffsets nb).s3) % nb)) 3 = m 3 ((c + (encryptOffsets nb).row 3) % nb) := by
  have hmod := fun j => h (j % nb) (Nat.mod_lt j (Nat.zero_lt_of_lt hc))
  simp only [h c hc, hmod, CipherMatrix.column, byteK_wordOf_0, byteK_wordOf_1, byteK_wordOf_2, byteK_wordOf_3,
    ShiftOffsets.row, Nat.add_zero, Nat.mod_eq_of_lt hc, and_self]

/-- A new state word is the column that a round of the cipher makes (R193, R196). -/
theorem HoldsMatrix.encryptRoundWord_eq (ke : RoundKeys) (r : Nat) :
    encryptRoundWord nb ke r c d =
      CipherMatrix.column (addRoundKey ke r (mixColumns (shiftRows (encryptOffsets nb) nb (subBytes m)))) c := by
  obtain ⟨h0, h1, h2, h3⟩ := h.gathered_bytes hc
  rw [column_addRoundKey, column_mixColumns_shiftRows_subBytes, encryptRoundWord, h0, h1, h2, h3]

/-- SubBytes and ShiftRows on the state word and on the column (R194, R196). -/
theorem HoldsMatrix.subShiftWord_eq :
    subShiftWord nb d c = CipherMatrix.column (shiftRows (encryptOffsets nb) nb (subBytes m)) c := by
  obtain ⟨h0, h1, h2, h3⟩ := h.gathered_bytes hc
  rw [subShiftWord, h0, h1, h2, h3]
  rfl

end holds

/-- After the key addition and k middle rounds the state words are the columns of the cipher's matrix. -/
theorem holdsMatrix_encryptAfter {nb : Nat} (hnb : nb ≤ 8) (ke : RoundKeys) (block : List Byte) (d : Datapath) (k : Nat) :
    HoldsMatrix nb (encryptAfter nb ke block d k) (cipherAfter nb ke block k) := by
  induction k with
  | zero =>
    intro c hc
    rw [encryptAfter_zero, getT_addInitialKey, if_pos ⟨hc, hc.trans_le hnb⟩, cipherAfter_zero, column_addRoundKey, column_loadMatrix]
  | succ k ih =>
    intro c hc
    rw [encryptAfter_succ, getT_encryptRound, if_pos ⟨hc, hc.trans_le hnb⟩, cipherAfter_succ, ih.encryptRoundWord_eq hc]

/-- Settles O28: the state words are the matrix's columns after every middle round, and the last round agrees on each column. -/
theorem encryptBlockIsRijndaelCipher : Obligations.EncryptBlockIsRijndaelCipher := by
  intro nb nr ke block d hnb
  have hnb8 : nb ≤ 8 := by simp only [List.mem_cons, List.not_mem_nil, or_false] at hnb; omega
  have hlast := holdsMatrix_encryptAfter hnb8 ke block d (nr - 1)
  rw [encryptBlock_eq, rijndaelCipher_eq, matrixBytes_eq]
  refine List.flatMap_congr fun c hc => ?_
  rw [encryptFinalBytes_eq, hlast.subShiftWord_eq (List.mem_range.mp hc), column_addRoundKey]

/-! ## ENCB, check by check (R190, R275) -/

section encb
variable {dlen : Nat} {s : State}

theorem execEncb_notKeyed (hf : s.faulted = false) (hk : s.ctx.keyed = false) :
    execEncb dlen s = .next (s.respond .notKeyed 0x03 0 []) := by
  rw [execEncb, unlessFaulted_of_clear hf, if_pos (by simp [hk]), raise_eq]

theorem execEncb_badBlockLength (hf : s.faulted = false) (hk : s.ctx.keyed = true) (hlen : dlen ≠ s.ctx.blockBytes) :
    execEncb dlen s = .next (s.respond .badBlockLength 0x03 0 []) := by
  rw [execEncb, unlessFaulted_of_clear hf, if_neg (not_not.mpr hk), if_pos hlen, raise_eq]

/-- ENCB of a DATA operand of the loaded size, however long the operand field is. -/
theorem execEncb_dataOperand (hf : s.faulted = false) (hk : s.ctx.keyed = true) (hlen : dlen = s.ctx.blockBytes) :
    execEncb dlen s = .next (State.respond { s with
      dp := (encryptBlock s.ctx.blockWords s.ctx.rounds s.ctx.ke (dataOperand s.inp 0 0 dlen) s.dp).2 } .ok 0x03 0
      (encryptBlock s.ctx.blockWords s.ctx.rounds s.ctx.ke (dataOperand s.inp 0 0 dlen) s.dp).1) := by
  rw [execEncb, unlessFaulted_of_clear hf, if_neg (not_not.mpr hk), if_neg (not_not.mpr hlen)]
  rfl

end encb

/-- Settles O23: one lemma a check; the success state differs in the datapath and the response alone. -/
theorem encbEncryptsOneBlockOrFails : Obligations.EncbEncryptsOneBlockOrFails :=
  fun _ _ => ⟨fun hf => unlessFaulted_of_faulted hf .., execEncb_notKeyed, execEncb_badBlockLength, fun hf hk hlen =>
    ⟨_, execEncb_dataOperand hf hk hlen, rfl, hf, rfl⟩⟩

end Sys2Proof.Machine
end

section
/-! PROOFS. DecryptBlock and DECB (44_block_decrypt.md): what DecryptBlock reads and writes, that EncryptBlock undoes it too, and the
command DECB check by check. -/

namespace Sys2Proof.Machine

/-! ## What DecryptBlock reads and writes (R215) -/

/-- Settles O26: its result is that of any datapath with the same meaningful keys, and each of its loops keeps all but t and a. -/
theorem decryptBlockReadsAndWritesOnlyItsOwn : Obligations.DecryptBlockReadsAndWritesOnlyItsOwn :=
  fun nb nr kd _ block d d' hk =>
    ⟨length_decryptBlock nb nr kd block d, decryptBlock_congr hk block d d', sameButTA_decryptBlock nb nr kd block d⟩

/-! ## EncryptBlock undoes DecryptBlock (R216)

Both map the blocks of one size, of which there are finitely many, to blocks of that size, so what undoes one is undone by it. -/

/-- The blocks of nb words. -/
abbrev Block (nb : Nat) := List.Vector Byte (4 * nb)

/-- EncryptBlock as a map of blocks of nb words. -/
def encryptMap (nb nr : Nat) (ke : RoundKeys) (d : Datapath) (b : Block nb) : Block nb :=
  ⟨(encryptBlock nb nr ke b.1 d).1, length_encryptBlock ..⟩

/-- DecryptBlock as a map of blocks of nb words. -/
def decryptMap (nb nr : Nat) (kd : RoundKeys) (d : Datapath) (b : Block nb) : Block nb :=
  ⟨(decryptBlock nb nr kd b.1 d).1, length_decryptBlock ..⟩

section inverse
variable {nb nr : Nat} {ke kd : RoundKeys} (hnb : nb ∈ [4, 6, 8]) (hnr : 1 ≤ nr) (hkeys : MirroredKeys nb nr ke kd)
include hnb hnr hkeys

theorem leftInverse_decryptMap_encryptMap (d d' : Datapath) :
    Function.LeftInverse (decryptMap nb nr kd d') (encryptMap nb nr ke d) := fun b =>
  Subtype.ext (decryptBlock_encryptBlock hnb hnr hkeys b.2 d d')

/-- An injective map of finitely many blocks is onto, and so its left inverse is its right inverse. -/
theorem rightInverse_decryptMap_encryptMap (d d' : Datapath) :
    Function.RightInverse (decryptMap nb nr kd d') (encryptMap nb nr ke d) := by
  have hleft := leftInverse_decryptMap_encryptMap hnb hnr hkeys d d'
  exact hleft.rightInverse_of_surjective (Finite.surjective_of_injective hleft.injective)

/-- EncryptBlock undoes DecryptBlock. -/
theorem encryptBlock_decryptBlock {block : List Byte} (hblock : block.length = 4 * nb) (d d' : Datapath) :
    (encryptBlock nb nr ke (decryptBlock nb nr kd block d).1 d').1 = block :=
  congrArg Subtype.val (rightInverse_decryptMap_encryptMap hnb hnr hkeys d' d ⟨block, hblock⟩)

end inverse

/-- A legal block is 4, 6 or 8 whole words. -/
theorem blockWords_of_legal {bs : Nat} (hb : LegalSize bs) : bs / 4 ∈ [4, 6, 8] ∧ bs = 4 * (bs / 4) := by
  rcases hb with rfl | rfl | rfl <;> decide

/-- Settles O29: the keys of one schedule are mirrored, so DecryptBlock undoes EncryptBlock, and by finiteness the other way too. -/
theorem blockTransformsAreInverse : Obligations.BlockTransformsAreInverse := by
  intro bs ks key block d d1 d2 hb hk _ hblock
  obtain ⟨hnb, hwords⟩ := blockWords_of_legal hb
  have hnr : 1 ≤ roundsFor bs ks := by rw [roundsFor_eq_max hb hk]; omega
  have hkeys := mirroredKeys_scheduleFor hb hk key d
  have hlen := hblock.trans hwords
  exact ⟨decryptBlock_encryptBlock hnb hnr hkeys hlen d1 d2, encryptBlock_decryptBlock hnb hnr hkeys hlen d1 d2⟩

/-! ## DECB, check by check (R210, R275) -/

section decb
variable {dlen : Nat} {s : State}

theorem execDecb_notKeyed (hf : s.faulted = false) (hk : s.ctx.keyed = false) :
    execDecb dlen s = .next (s.respond .notKeyed 0x04 0 []) := by
  rw [execDecb, unlessFaulted_of_clear hf, if_pos (by simp [hk]), raise_eq]

theorem execDecb_badBlockLength (hf : s.faulted = false) (hk : s.ctx.keyed = true) (hlen : dlen ≠ s.ctx.blockBytes) :
    execDecb dlen s = .next (s.respond .badBlockLength 0x04 0 []) := by
  rw [execDecb, unlessFaulted_of_clear hf, if_neg (not_not.mpr hk), if_pos hlen, raise_eq]

/-- DECB of a DATA operand of the loaded size, however long the operand field is. -/
theorem execDecb_dataOperand (hf : s.faulted = false) (hk : s.ctx.keyed = true) (hlen : dlen = s.ctx.blockBytes) :
    execDecb dlen s = .next (State.respond { s with
      dp := (decryptBlock s.ctx.blockWords s.ctx.rounds s.ctx.kd (dataOperand s.inp 0 0 dlen) s.dp).2 } .ok 0x04 0
      (decryptBlock s.ctx.blockWords s.ctx.rounds s.ctx.kd (dataOperand s.inp 0 0 dlen) s.dp).1) := by
  rw [execDecb, unlessFaulted_of_clear hf, if_neg (not_not.mpr hk), if_neg (not_not.mpr hlen)]
  rfl

end decb

/-- Settles O24: one lemma a check; the success state differs in the datapath and the response alone. -/
theorem decbDecryptsOneBlockOrFails : Obligations.DecbDecryptsOneBlockOrFails :=
  fun _ _ => ⟨fun hf => unlessFaulted_of_faulted hf .., execDecb_notKeyed, execDecb_badBlockLength, fun hf hk hlen =>
    ⟨_, execDecb_dataOperand hf hk hlen, rfl, hf, rfl⟩⟩

end Sys2Proof.Machine
end

section
/-! PROOFS. The CBC chains (45_cbc_wrapper.md): each chain's blocks as functions of context and message, how they link, that
decryption undoes encryption, and how far a changed block reaches. -/

namespace Sys2Proof.Machine

/-! ## A chain under way (R232, R233) -/

/-- The chaining value of turn j where the chain carries `blocks` from turn to turn: the IV, then the block of the turn before
(R232, R233). -/
def chainingValue (c : Context) (blocks : Nat → List Byte) : Nat → List Byte
  | 0 => storeBytes c.iv c.blockBytes
  | j + 1 => blocks j

/-- Block j of the chained encryption of p: the message block XORed with the chaining value, encrypted (R232). EncryptBlock's result
does not depend on its datapath d (R195). -/
def cipherBlock (c : Context) (p : List Byte) (d : Datapath) : Nat → List Byte
  | 0 => (encryptBlock c.blockWords c.rounds c.ke
      (xorbytes (messageBlock c.blockBytes p 0) (storeBytes c.iv c.blockBytes)) d).1
  | j + 1 => (encryptBlock c.blockWords c.rounds c.ke
      (xorbytes (messageBlock c.blockBytes p (j + 1)) (cipherBlock c p d j)) d).1

/-- Block j of the chained decryption of m: the ciphertext block decrypted, XORed with the chaining value (R233). -/
def plainBlock (c : Context) (m : List Byte) (d : Datapath) (j : Nat) : List Byte :=
  xorbytes (decryptBlock c.blockWords c.rounds c.kd (messageBlock c.blockBytes m j) d).1
    (chainingValue c (messageBlock c.blockBytes m) j)

/-- A chain after n turns: n blocks are out, and the chaining value of the next turn is in v. -/
structure ChainAt (c : Context) (out carried : Nat → List Byte) (n : Nat) (acc : List Byte × Datapath) : Prop where
  length : acc.1.length = n * c.blockBytes
  blocks : ∀ j, j < n → messageBlock c.blockBytes acc.1 j = out j
  carries : storeBytes acc.2.v c.blockBytes = chainingValue c carried n

theorem chainingValue_eq_ite (c : Context) (blocks : Nat → List Byte) (j : Nat) :
    chainingValue c blocks j = if j = 0 then storeBytes c.iv c.blockBytes else blocks (j - 1) := by
  cases j <;> rfl

/-- The chaining value of turn j depends on the block before it alone. -/
theorem chainingValue_congr (c : Context) {blocks blocks' : Nat → List Byte} {j : Nat}
    (h : ∀ i, j = i + 1 → blocks i = blocks' i) : chainingValue c blocks j = chainingValue c blocks' j := by
  cases j with
  | zero => rfl
  | succ i => exact h i rfl

theorem cipherBlock_eq (c : Context) (p : List Byte) (d : Datapath) (j : Nat) :
    cipherBlock c p d j = (encryptBlock c.blockWords c.rounds c.ke
      (xorbytes (messageBlock c.blockBytes p j) (chainingValue c (cipherBlock c p d) j)) d).1 := by
  cases j <;> rfl

/-- A block of the chained encryption is a whole block. -/
theorem length_cipherBlock (c : Context) (p : List Byte) (d : Datapath) (j : Nat) :
    (cipherBlock c p d j).length = c.blockBytes := by
  rw [cipherBlock_eq]
  exact length_encryptBlock ..

section chain
variable {c : Context} (hnb : c.nb.toNat ∈ [4, 6, 8])
include hnb

/-- A legal block is not empty and fits a 32-byte store (R12). -/
theorem blockBytes_bounds : 0 < c.blockBytes ∧ c.blockBytes ≤ 32 := by
  simp only [List.mem_cons, List.not_mem_nil, or_false] at hnb
  simp only [Context.blockBytes]
  omega

/-- The chaining value is a whole block where the blocks carried are. -/
theorem length_chainingValue {blocks : Nat → List Byte} {j : Nat}
    (h : ∀ i, j = i + 1 → (blocks i).length = c.blockBytes) : (chainingValue c blocks j).length = c.blockBytes := by
  cases j with
  | zero => exact (length_storeBytes ..).trans (min_eq_left (blockBytes_bounds hnb).2)
  | succ i => exact h i rfl

/-- A chain starts with no block out and the IV in v (R232, R233, R238). -/
theorem chainAt_start (out carried : Nat → List Byte) (d : Datapath) :
    ChainAt c out carried 0 ([], d.setV (storeBytes c.iv c.blockBytes)) where
  length := (Nat.zero_mul _).symm
  blocks _ hj := absurd hj (Nat.not_lt_zero _)
  carries := storeBytes_setV (length_chainingValue hnb (blocks := carried) (j := 0) nofun) (blockBytes_bounds hnb).2

/-- A turn appends the next block and carries the next chaining value. -/
theorem ChainAt.turn {out carried : Nat → List Byte} {n : Nat} {acc : List Byte × Datapath} (h : ChainAt c out carried n acc)
    (hout : (out n).length = c.blockBytes) (hcarried : (carried n).length = c.blockBytes) (d : Datapath) :
    ChainAt c out carried (n + 1) (acc.1 ++ out n, d.setV (carried n)) where
  length := by rw [List.length_append, h.length, hout, Nat.succ_mul]
  blocks j hj := by
    obtain hlt | rfl := Nat.lt_succ_iff_lt_or_eq.mp hj
    · rw [messageBlock_append_of_lt _ h.length hlt, h.blocks j hlt]
    · exact messageBlock_append_self h.length hout
  carries := storeBytes_setV hcarried (blockBytes_bounds hnb).2

/-- The chained encryption puts out `cipherBlock`, which it also carries, whatever the datapath held (R232). -/
theorem chainAt_cbcEncryptChain {p : List Byte} {n : Nat} (hp : p.length = n * c.blockBytes) (d d' : Datapath) :
    ChainAt c (cipherBlock c p d') (cipherBlock c p d') n (cbcEncryptChain c p d) := by
  rw [cbcEncryptChain, blocks_div hp (blockBytes_bounds hnb).1]
  refine forUpTo_induction _ _ _ _ (chainAt_start hnb _ _ d) fun j acc _ h => ?_
  have hblock : (encryptBlock c.blockWords c.rounds c.ke
      (xorbytes (messageBlock c.blockBytes p j) (storeBytes acc.2.v c.blockBytes)) acc.2).1 = cipherBlock c p d' j := by
    rw [h.carries, cipherBlock_eq]
    exact encryptBlock_congr (fun _ _ _ _ => rfl) ..
  rw [cbcEncryptTurn, hblock]
  exact h.turn hnb (length_cipherBlock ..) (length_cipherBlock ..) _

/-- A block of the chained decryption is a whole block. -/
theorem length_plainBlock {m : List Byte} {n j : Nat} (hm : m.length = n * c.blockBytes) (hj : j < n) (d : Datapath) :
    (plainBlock c m d j).length = c.blockBytes := by
  have hvalue : (chainingValue c (messageBlock c.blockBytes m) j).length = c.blockBytes :=
    length_chainingValue hnb fun i hi => length_messageBlock hm (by omega)
  rw [plainBlock, length_xorbytes, hvalue, length_decryptBlock]
  exact min_self _

/-- The chained decryption puts out `plainBlock` and carries the ciphertext's own blocks, whatever the datapath held (R233). -/
theorem chainAt_cbcDecryptChain {m : List Byte} {n : Nat} (hm : m.length = n * c.blockBytes) (d d' : Datapath) :
    ChainAt c (plainBlock c m d') (messageBlock c.blockBytes m) n (cbcDecryptChain c m d) := by
  rw [cbcDecryptChain, blocks_div hm (blockBytes_bounds hnb).1]
  refine forUpTo_induction _ _ _ _ (chainAt_start hnb _ _ d) fun j acc hj h => ?_
  have hblock : xorbytes (decryptBlock c.blockWords c.rounds c.kd (messageBlock c.blockBytes m j) acc.2).1
      (storeBytes acc.2.v c.blockBytes) = plainBlock c m d' j := by
    rw [h.carries, plainBlock, decryptBlock_congr (fun _ _ _ _ => rfl) _ acc.2 d']
  rw [cbcDecryptTurn, hblock]
  exact h.turn hnb (length_plainBlock hnb hm hj d') (length_messageBlock hm hj) _

end chain

/-! ## How the blocks link (R232, R233, R239) -/

/-- Settles O34: the chain puts out `cipherBlock`, and the block before is the one that went into the next. -/
theorem cbcEncryptChainLinksBlocks : Obligations.CbcEncryptChainLinksBlocks := by
  intro c p d d' n hnb hp
  have hchain := chainAt_cbcEncryptChain hnb hp d d'
  refine ⟨hchain.length.trans hp.symm, fun j hj => ?_⟩
  rw [hchain.blocks j hj, cipherBlock_eq, ← chainingValue_eq_ite,
    chainingValue_congr c fun i hi => (hchain.blocks i (by omega)).symm]

/-- Settles O35: the chain puts out `plainBlock`, which is stated by the ciphertext's own blocks. -/
theorem cbcDecryptChainLinksBlocks : Obligations.CbcDecryptChainLinksBlocks := by
  intro c m d d' n hnb hm
  have hchain := chainAt_cbcDecryptChain hnb hm d d'
  refine ⟨hchain.length.trans hm.symm, fun j hj => ?_⟩
  rw [hchain.blocks j hj, plainBlock, chainingValue_eq_ite]

/-- Settles O37: block k of the decryption is made of the ciphertext's blocks k and k - 1 alone. -/
theorem corruptBlockSpoilsOnlyItsNeighbour : Obligations.CorruptBlockSpoilsOnlyItsNeighbour := by
  intro c m m' d d' n j hnb hm hm' hsame k hk hkj hkj'
  have hvalue : chainingValue c (messageBlock c.blockBytes m) k = chainingValue c (messageBlock c.blockBytes m') k :=
    chainingValue_congr c fun i hi => hsame i (by omega) (by omega)
  rw [(chainAt_cbcDecryptChain hnb hm d d).blocks k hk, (chainAt_cbcDecryptChain hnb hm' d' d).blocks k hk, plainBlock, plainBlock,
    hsame k hk hkj, hvalue]

/-! ## CBCD after CBCE (R246) -/

/-- The chained decryption undoes the chained encryption, with the round keys of one schedule. -/
theorem cbcDecryptChain_cbcEncryptChain {c : Context} (hc : c.Scheduled) {p : List Byte} (hp : p.length % c.blockBytes = 0)
    (d d' : Datapath) : (cbcDecryptChain c (cbcEncryptChain c p d).1 d').1 = p := by
  obtain ⟨hnb, hnr, hkeys⟩ := hc.keys
  have hlen : p.length = p.length / c.blockBytes * c.blockBytes := (Nat.div_mul_cancel (Nat.dvd_of_mod_eq_zero hp)).symm
  have henc := chainAt_cbcEncryptChain hnb hlen d d
  have hdec := chainAt_cbcDecryptChain hnb henc.length d' d'
  refine message_ext hdec.length hlen fun j hj => ?_
  have hblock := length_messageBlock hlen hj
  have hvalue := length_chainingValue (blocks := cipherBlock c p d) (j := j) hnb fun i _ => length_cipherBlock ..
  have hxor : (xorbytes (messageBlock c.blockBytes p j) (chainingValue c (cipherBlock c p d) j)).length = 4 * c.blockWords := by
    rw [length_xorbytes, hblock, hvalue]
    exact min_self _
  rw [hdec.blocks j hj, plainBlock, henc.blocks j hj, chainingValue_congr c fun i hi => henc.blocks i (by omega), cipherBlock_eq,
    decryptBlock_encryptBlock hnb hnr hkeys hxor, xorbytes_cancel _ _ (hblock.trans hvalue.symm)]

/-- A context that holds a schedule has a legal block size (R34, R36). -/
theorem Context.Scheduled.blockBytes_mem {c : Context} (h : c.Scheduled) : c.blockBytes ∈ [16, 24, 32] := by
  obtain ⟨hnb, -, -⟩ := h.keys
  have hbytes : c.blockBytes = 4 * c.blockWords := rfl
  simp only [List.mem_cons, List.not_mem_nil, or_false] at hnb ⊢
  omega

/-- Where CBCE answered OK with c: its checks passed, and c is the chained encryption of the padded message (R240). -/
theorem cbcEncryptMessage_of_ok {p : Params} {dlen : Nat} {s t : State} {c : List Byte} (h : cbcEncryptMessage p dlen s = .next t)
    (hresponse : t.responses = s.responses ++ [response .ok 0x05 0 c]) :
    s.ctx.keyed = true ∧ s.ctx.ivValid = true ∧ t.ctx = s.ctx ∧
      ∃ padded, padded = p.padEncode s.ctx.blockBytes (dataOperand s.inp 0 0 dlen) ∧ padded.length ≤ p.maxMsgLen ∧
        padded.length % s.ctx.blockBytes = 0 ∧ c = (cbcEncryptChain s.ctx padded s.dp).1 := by
  rcases cbcEncryptMessage_cases h with ⟨st, hst, rfl⟩ | ⟨-, hkeyed, hiv, -, padded, hpadded, hlen, hblocks, rfl⟩
  · have heq : response st 0x05 0 [] = response .ok 0x05 0 c := by simpa using hresponse
    have hcode := congrArg Response.statusCode heq
    rw [response_statusCode, response_statusCode] at hcode
    exact absurd (statusCode_injective hcode) hst
  · have heq : response .ok 0x05 0 (cbcEncryptChain s.ctx padded s.dp).1 = response .ok 0x05 0 c := by simpa using hresponse
    exact ⟨hkeyed, hiv, rfl, padded, hpadded, hlen, hblocks, (congrArg Response.out heq).symm⟩

/-- Settles O36: what CBCE answered is the chained encryption of the padded message; CBCD's chain gives that message back, and by
PAD-INV PAD.decode takes the padding off. -/
theorem cbcRoundTripGivesMessageBack : Obligations.CbcRoundTripGivesMessageBack := by
  rintro p s t s' _ c - hinv hc rfl hx - henc hresponse hctx hf' rfl
  obtain ⟨hkeyed, hiv, hkept, padded, hpadded, hlen, hblocks, hout⟩ := cbcEncryptMessage_of_ok henc hresponse
  have hsame : s'.ctx = s.ctx := hctx.trans hkept
  have hcipher : s'.inp.length = padded.length := by
    rw [hout, length_cbcEncryptChain, Nat.div_mul_cancel (Nat.dvd_of_mod_eq_zero hblocks)]
  have hplain : (cbcDecryptChain s'.ctx (dataOperand s'.inp 0 0 s'.inp.length) s'.dp).1 = padded := by
    rw [dataOperand_whole, hsame, hout, cbcDecryptChain_cbcEncryptChain hc hblocks]
  have hdecode : p.padDecode s'.ctx.blockBytes (cbcDecryptChain s'.ctx (dataOperand s'.inp 0 0 s'.inp.length) s'.dp).1 =
      .ok s.inp := by
    rw [hplain, hpadded, hsame, dataOperand_whole]
    exact hinv _ _ hc.blockBytes_mem
  have hwhole : s'.inp.length % s'.ctx.blockBytes = 0 := by rw [hcipher, hsame, hblocks]
  exact ⟨_, cbcDecryptMessage_ok hf' (hsame ▸ hkeyed) (hsame ▸ hiv) (hcipher.trans_le hlen) hwhole hdecode hx, rfl, rfl⟩

end Sys2Proof.Machine
end

section
/-! PROOFS. The commands CINIT, CBCE and CBCD (45_cbc_wrapper.md), check by check, what CBCE's answer depends on, and the one way to
set FAULTED. -/

namespace Sys2Proof.Machine

/-! ## CINIT, check by check (R234, R275) -/

section cinit
variable {klen blen ivlen : Nat} {s : State} (hf : s.faulted = false)
include hf

theorem execCinit_badBlockSize (hb : ¬ LegalSize blen) :
    execCinit klen blen ivlen s = .next (s.respond .badBlockSize 0x02 0 []) := by
  rw [execCinit, unlessFaulted_of_clear hf, if_pos hb, raise_eq]

theorem execCinit_badKeyLength (hb : LegalSize blen) (hk : ¬ LegalSize klen) :
    execCinit klen blen ivlen s = .next (s.respond .badKeyLength 0x02 0 []) := by
  rw [execCinit, unlessFaulted_of_clear hf, if_neg (not_not.mpr hb), if_pos hk, raise_eq]

theorem execCinit_badIvLength (hb : LegalSize blen) (hk : LegalSize klen) (hv : ivlen ≠ blen) :
    execCinit klen blen ivlen s = .next (s.respond .badIvLength 0x02 0 []) := by
  rw [execCinit, unlessFaulted_of_clear hf, if_neg (not_not.mpr hb), if_neg (not_not.mpr hk), if_pos hv, raise_eq]

theorem execCinit_ok (hb : LegalSize blen) (hk : LegalSize klen) (hv : ivlen = blen) :
    execCinit klen blen ivlen s = .next (State.respond { s with
      ctx := ((s.ctx.loadSchedule blen klen (scheduleFor (keyOperand s.inp klen) blen klen s.dp)).loadIv
        (ivOperand s.inp klen ivlen) s.freeCount).markKeyedWithIv
      dp := scheduleFor (keyOperand s.inp klen) blen klen s.dp } .ok 0x02 0 []) := by
  rw [execCinit, unlessFaulted_of_clear hf, if_neg (not_not.mpr hb), if_neg (not_not.mpr hk), if_neg (not_not.mpr hv)]
  rfl

end cinit

/-- A store over which the IV operand of a legal length was written reads it back (R40, R234). -/
theorem storeBytes_setStoreBytes_ivOperand (v : Vector Byte 32) {inp : List Byte} {klen blen : Nat} (hb : LegalSize blen)
    (hlen : inp.length = klen + blen) :
    storeBytes (setStoreBytes v (ivOperand inp klen blen)) blen = ivOperand inp klen blen := by
  have hiv : (ivOperand inp klen blen).length = blen := by simp [ivOperand, hlen]
  have h := storeBytes_setStoreBytes v (ivOperand inp klen blen) (by omega)
  rwa [hiv] at h

/-- Settles O17: one lemma a check; of the success state every field is as its update says, and the IV is read back from
its store. -/
theorem cinitLoadsScheduleAndIvOrFails : Obligations.CinitLoadsScheduleAndIvOrFails := by
  intro klen blen ivlen s
  refine ⟨fun hf => unlessFaulted_of_faulted hf .., execCinit_badBlockSize, execCinit_badKeyLength, execCinit_badIvLength, ?_⟩
  rintro hf hb hk rfl hlen
  exact ⟨_, execCinit_ok hf hb hk rfl, rfl, rfl, rfl, rfl, rfl, storeBytes_setStoreBytes_ivOperand _ hb hlen, rfl, rfl, hf, rfl⟩

/-! ## CBCE and CBCD, check by check (R240, R241, R244, R275) -/

section checks
variable {p : Params} {dlen : Nat} {s : State} (hf : s.faulted = false)
include hf

theorem cbcEncryptMessage_notKeyed (hk : s.ctx.keyed = false) :
    cbcEncryptMessage p dlen s = .next (s.respond .notKeyed 0x05 0 []) := by
  rw [cbcEncryptMessage, unlessFaulted_of_clear hf, if_pos (by simp [hk]), raise_eq]

theorem cbcDecryptMessage_notKeyed (hk : s.ctx.keyed = false) :
    cbcDecryptMessage p dlen s = .next (s.respond .notKeyed 0x06 0 []) := by
  rw [cbcDecryptMessage, unlessFaulted_of_clear hf, if_pos (by simp [hk]), raise_eq]

variable (hk : s.ctx.keyed = true)
include hk

theorem cbcEncryptMessage_noIv (hi : s.ctx.ivValid = false) :
    cbcEncryptMessage p dlen s = .next (s.respond .noIv 0x05 0 []) := by
  rw [cbcEncryptMessage, unlessFaulted_of_clear hf, if_neg (not_not.mpr hk), if_pos (by simp [hi]), raise_eq]

theorem cbcDecryptMessage_noIv (hi : s.ctx.ivValid = false) :
    cbcDecryptMessage p dlen s = .next (s.respond .noIv 0x06 0 []) := by
  rw [cbcDecryptMessage, unlessFaulted_of_clear hf, if_neg (not_not.mpr hk), if_pos (by simp [hi]), raise_eq]

variable (hi : s.ctx.ivValid = true)
include hi

theorem cbcEncryptMessage_msgTooLong (hl : p.maxMsgLen < dlen) :
    cbcEncryptMessage p dlen s = .next (s.respond .msgTooLong 0x05 0 []) := by
  rw [cbcEncryptMessage, unlessFaulted_of_clear hf, if_neg (not_not.mpr hk), if_neg (not_not.mpr hi), if_pos hl, raise_eq]

theorem cbcDecryptMessage_msgTooLong (hl : p.maxMsgLen < dlen) :
    cbcDecryptMessage p dlen s = .next (s.respond .msgTooLong 0x06 0 []) := by
  rw [cbcDecryptMessage, unlessFaulted_of_clear hf, if_neg (not_not.mpr hk), if_neg (not_not.mpr hi), if_pos hl, raise_eq]

variable (hl : dlen ≤ p.maxMsgLen)
include hl

theorem cbcEncryptMessage_paddedTooLong
    (hlen : p.maxMsgLen < (p.padEncode s.ctx.blockBytes (dataOperand s.inp 0 0 dlen)).length) :
    cbcEncryptMessage p dlen s = .next (s.respond .msgTooLong 0x05 0 []) := by
  rw [cbcEncryptMessage, unlessFaulted_of_clear hf, if_neg (not_not.mpr hk), if_neg (not_not.mpr hi), if_neg hl.not_gt]
  exact if_pos hlen

theorem cbcEncryptMessage_badBlockLength
    (hlen : (p.padEncode s.ctx.blockBytes (dataOperand s.inp 0 0 dlen)).length ≤ p.maxMsgLen)
    (hblocks : (p.padEncode s.ctx.blockBytes (dataOperand s.inp 0 0 dlen)).length % s.ctx.blockBytes ≠ 0) :
    cbcEncryptMessage p dlen s = .next (s.respond .badBlockLength 0x05 0 []) := by
  rw [cbcEncryptMessage, unlessFaulted_of_clear hf, if_neg (not_not.mpr hk), if_neg (not_not.mpr hi), if_neg hl.not_gt]
  exact (if_neg hlen.not_gt).trans (if_pos hblocks)

theorem cbcDecryptMessage_lengthFault (hblocks : dlen % s.ctx.blockBytes ≠ 0) :
    cbcDecryptMessage p dlen s = .next (s.setFaulted.respond .faulted 0x06 0 []) := by
  rw [cbcDecryptMessage, unlessFaulted_of_clear hf, if_neg (not_not.mpr hk), if_neg (not_not.mpr hi), if_neg hl.not_gt,
    if_pos hblocks, raise_eq]

variable (hblocks : dlen % s.ctx.blockBytes = 0)
include hblocks

theorem cbcDecryptMessage_paddingError {e : Byte}
    (he : p.padDecode s.ctx.blockBytes (cbcDecryptChain s.ctx (dataOperand s.inp 0 0 dlen) s.dp).1 = .err e) :
    cbcDecryptMessage p dlen s = .next (State.respond
      { s with dp := (cbcDecryptChain s.ctx (dataOperand s.inp 0 0 dlen) s.dp).2 } .paddingError 0x06 e []) := by
  rw [cbcDecryptMessage, unlessFaulted_of_clear hf, if_neg (not_not.mpr hk), if_neg (not_not.mpr hi), if_neg hl.not_gt,
    if_neg (not_not.mpr hblocks)]
  simp only [he, raise_eq]

theorem cbcDecryptMessage_resultTooLong {m : List Byte}
    (hm : p.padDecode s.ctx.blockBytes (cbcDecryptChain s.ctx (dataOperand s.inp 0 0 dlen) s.dp).1 = .ok m)
    (hlen : p.maxMsgLen < m.length) :
    cbcDecryptMessage p dlen s = .next (State.respond
      { s with dp := (cbcDecryptChain s.ctx (dataOperand s.inp 0 0 dlen) s.dp).2 } .msgTooLong 0x06 0 []) := by
  rw [cbcDecryptMessage, unlessFaulted_of_clear hf, if_neg (not_not.mpr hk), if_neg (not_not.mpr hi), if_neg hl.not_gt,
    if_neg (not_not.mpr hblocks)]
  simp only [hm, if_pos hlen, raise_eq]

end checks

/-- Settles O31: one lemma a check; past the first four, the padded message is too long, no whole blocks, or encrypted. -/
theorem cbceEncryptsMessageOrFails : Obligations.CbceEncryptsMessageOrFails := by
  intro dlen s
  refine ⟨fun hf => unlessFaulted_of_faulted hf .., cbcEncryptMessage_notKeyed, cbcEncryptMessage_noIv,
    cbcEncryptMessage_msgTooLong (p := Config.params), fun hf hk hi hl => ?_⟩
  obtain hlen | hlen := lt_or_ge Config.maxMsgLen (Config.padEncode s.ctx.blockBytes (dataOperand s.inp 0 0 dlen)).length
  · exact ⟨_, cbcEncryptMessage_paddedTooLong hf hk hi hl hlen, rfl, hf, fun _ => rfl, fun h => absurd h hlen.not_ge,
      fun h => absurd h hlen.not_ge⟩
  by_cases hblocks : (Config.padEncode s.ctx.blockBytes (dataOperand s.inp 0 0 dlen)).length % s.ctx.blockBytes = 0
  · exact ⟨_, cbcEncryptMessage_ok hf hk hi hl rfl hlen hblocks, rfl, hf, fun h => absurd h hlen.not_gt,
      fun _ h => absurd hblocks h, fun _ _ => rfl⟩
  · exact ⟨_, cbcEncryptMessage_badBlockLength hf hk hi hl hlen hblocks, rfl, hf, fun h => absurd h hlen.not_gt, fun _ _ => rfl,
      fun _ h => absurd h hblocks⟩

/-- Settles O32: one lemma a check; of whole blocks PAD.decode answers an error, too many bytes, or the message. -/
theorem cbcdDecryptsMessageOrFails : Obligations.CbcdDecryptsMessageOrFails := by
  intro dlen s
  refine ⟨fun hf => unlessFaulted_of_faulted hf .., cbcDecryptMessage_notKeyed, cbcDecryptMessage_noIv,
    cbcDecryptMessage_msgTooLong (p := Config.params),
    fun hf hk hi hl hblocks => ⟨_, cbcDecryptMessage_lengthFault hf hk hi hl hblocks, rfl, rfl, rfl⟩,
    fun hf hk hi hl hblocks => ?_⟩
  cases hdecode : Config.padDecode s.ctx.blockBytes (cbcDecryptChain s.ctx (dataOperand s.inp 0 0 dlen) s.dp).1 with
  | err e =>
    refine ⟨_, cbcDecryptMessage_paddingError hf hk hi hl hblocks hdecode, rfl, hf, fun e' he => ?_, fun m hm => ?_,
      fun m hm => ?_⟩
    · cases hdecode.symm.trans he
      rfl
    · cases hdecode.symm.trans hm
    · cases hdecode.symm.trans hm
  | ok m =>
    obtain hlen | hlen := lt_or_ge Config.maxMsgLen m.length
    · refine ⟨_, cbcDecryptMessage_resultTooLong hf hk hi hl hblocks hdecode hlen, rfl, hf, fun e he => ?_, fun _ _ _ => rfl,
        fun m' hm hlen' => ?_⟩
      · cases hdecode.symm.trans he
      · cases hdecode.symm.trans hm
        exact absurd hlen' hlen.not_ge
    · refine ⟨_, cbcDecryptMessage_ok hf hk hi hl hblocks hdecode hlen, rfl, hf, fun e he => ?_, fun m' hm hlen' => ?_,
        fun m' hm _ => ?_⟩
      · cases hdecode.symm.trans he
      · cases hdecode.symm.trans hm
        exact absurd hlen' hlen.not_gt
      · cases hdecode.symm.trans hm
        rfl

/-! ## What CBCE's answer depends on (R247, R249) -/

/-- CBCE does not look at what is still to arrive. -/
theorem cbcEncryptMessage_withArrivals {p : Params} {dlen : Nat} {s t : State} (h : cbcEncryptMessage p dlen s = .next t)
    (arrivals : List Arrival) :
    cbcEncryptMessage p dlen { s with arrivals := arrivals } = .next { t with arrivals := arrivals } := by
  simp only [cbcEncryptMessage, unlessFaulted, raise, finish] at h ⊢
  split_ifs at h ⊢ <;> (cases h; rfl)

/-- Settles O38: with the same arrivals the two states agree, and states that agree answer alike. -/
theorem sameMessageSameCiphertext : Obligations.SameMessageSameCiphertext := by
  intro dlen s s' t t' hctx hf hinp h h'
  have hagree : State.Agree { s with arrivals := s'.arrivals } s' := ⟨rfl, hf, hctx ▸ .refl _⟩
  obtain ⟨u, u', a, hu, hu', hr, hr'⟩ := cbcEncryptMessage_alike hagree hinp Config.params dlen
  cases (cbcEncryptMessage_withArrivals h s'.arrivals).symm.trans hu
  cases h'.symm.trans hu'
  exact (newResponses_of_append hr).trans (newResponses_of_append hr'.1).symm

/-! ## The length fault (R241, R245) -/

/-- The command that sets FAULTED is a CBCD that passed the checks before its length fault. -/
theorem exec_setsFaulted {i : Instr} {s t : State} (h : exec i s = .next t) (hf : s.faulted = false) (ht : t.faulted = true) :
    ∃ dlen, i = .cbcd dlen ∧ s.ctx.keyed = true ∧ s.ctx.ivValid = true ∧ dlen ≤ Config.maxMsgLen ∧
      dlen % s.ctx.blockBytes ≠ 0 := by
  have hsame : t.faulted ≠ s.faulted := by simp [hf, ht]
  by_cases hi : ∃ dlen, i = .cbcd dlen
  · obtain ⟨dlen, rfl⟩ := hi
    rcases cbcDecryptMessage_cases h with ⟨st, -, rfl⟩ | ⟨-, hkeyed, hiv, hl, ⟨hblocks, -⟩ | ⟨-, s1, q, rfl, -, hend⟩⟩
    · exact absurd rfl hsame
    · exact ⟨dlen, rfl, hkeyed, hiv, hl, hblocks⟩
    · rcases hend with ⟨e, -, rfl⟩ | ⟨m, -, -, rfl⟩ | ⟨m, -, -, rfl⟩
      all_goals exact absurd rfl hsame
  · exact absurd ((exec_ends h).faulted fun dlen heq => hi ⟨dlen, heq⟩) hsame

/-- Settles O41: a reset clears the flag, waiting and an illegal frame keep it, and of the commands only the length fault sets
it. -/
theorem faultedSetOnlyByCbcdLength : Obligations.FaultedSetOnlyByCbcdLength := by
  intro s t hstep hf ht
  rcases port_cases s with ⟨header, operands, rest, hframe, -⟩ | ⟨-, rest, -, -, hreset⟩ | ⟨-, -, -, hwait⟩
  · rw [step_of_frame hframe, runFrame] at hstep
    split at hstep
    next i hdecode =>
      obtain ⟨dlen, rfl, hchecks⟩ := exec_setsFaulted hstep hf ht
      exact ⟨header, operands, rest, dlen, hframe, (decode_of_length hframe.header_length).trans hdecode, hchecks⟩
    next =>
      obtain ⟨st, -, heq⟩ := illegalCommand_cases (s.accept operands rest) (Header.ofBytes header).opc
      cases heq.symm.trans hstep
      exact absurd ht (by simp [hf])
  · cases (step_of_reset hreset).symm.trans hstep
    cases ht
  · cases (step_of_partial hwait).symm.trans hstep
    exact absurd ht (by simp [hf])

end Sys2Proof.Machine
end

section
/-! PROOFS. STAT (46_control.md): the payload by field, and what it depends on. -/

namespace Sys2Proof.Machine

/-! ## The STAT payload (R44, R261) -/

/-- A flag shows at its own bit and nowhere else (R44). -/
theorem getLsbD_flagBit (b : Bool) {n : Nat} (hn : n < 8) (k : Nat) : (flagBit b n).getLsbD k = (b && decide (k = n)) := by
  cases b with
  | false => simp [flagBit]
  | true =>
    have hpow : flagBit true n = BitVec.twoPow 8 n := rfl
    simp [hpow, BitVec.getLsbD_twoPow, hn, eq_comm]

/-- Byte 0 of the payload, bit by bit (R44). -/
theorem getLsbD_statFlags (s : State) (k : Nat) :
    s.statFlags.getLsbD k =
      (s.ctx.keyed && decide (k = 0) || s.ctx.ivValid && decide (k = 1) || s.faulted && decide (k = 2)) := by
  rw [State.statFlags, BitVec.getLsbD_or, BitVec.getLsbD_or, getLsbD_flagBit _ (by decide), getLsbD_flagBit _ (by decide),
    getLsbD_flagBit _ (by decide)]

/-- A size field of four bits, or four times it, fits a payload byte (R36, R261). -/
theorem sizeByte_toNat (x : BitVec 4) :
    (BitVec.ofNat 8 (4 * x.toNat)).toNat = 4 * x.toNat ∧ (BitVec.ofNat 8 x.toNat).toNat = x.toNat := by
  have hx := x.isLt
  exact ⟨Nat.mod_eq_of_lt (by omega), Nat.mod_eq_of_lt (by omega)⟩

theorem statPayload_of_keyed {s : State} (hk : s.ctx.keyed = true) :
    s.statPayload = [s.statFlags, BitVec.ofNat 8 (4 * s.ctx.nb.toNat), BitVec.ofNat 8 (4 * s.ctx.nk.toNat),
      BitVec.ofNat 8 s.ctx.nr.toNat] := if_pos hk

theorem statPayload_of_notKeyed {s : State} (hk : ¬ s.ctx.keyed = true) : s.statPayload = [s.statFlags, 0, 0, 0] :=
  if_neg hk

/-- The payload is four bytes: the flags, and sizes that are 0 without a key (R261). -/
theorem statPayload_fields (s : State) :
    ∃ b1 b2 b3, s.statPayload = [s.statFlags, b1, b2, b3] ∧
      (s.ctx.keyed = true → b1.toNat = 4 * s.ctx.nb.toNat ∧ b2.toNat = 4 * s.ctx.nk.toNat ∧ b3.toNat = s.ctx.nr.toNat) ∧
      (s.ctx.keyed = false → b1 = 0 ∧ b2 = 0 ∧ b3 = 0) := by
  by_cases hk : s.ctx.keyed = true
  · refine ⟨_, _, _, statPayload_of_keyed hk, fun _ => ?_, fun h => absurd hk (by simp [h])⟩
    exact ⟨(sizeByte_toNat _).1, (sizeByte_toNat _).1, (sizeByte_toNat _).2⟩
  · exact ⟨0, 0, 0, statPayload_of_notKeyed hk, fun h => absurd h hk, fun _ => ⟨rfl, rfl, rfl⟩⟩

/-- The payload depends on the flags, and on the sizes while a key is loaded (R261). -/
theorem statPayload_congr {s s' : State} (hf : s.faulted = s'.faulted) (hk : s.ctx.keyed = s'.ctx.keyed)
    (hi : s.ctx.ivValid = s'.ctx.ivValid)
    (hsizes : s.ctx.keyed = true → s.ctx.nb = s'.ctx.nb ∧ s.ctx.nk = s'.ctx.nk ∧ s.ctx.nr = s'.ctx.nr) :
    s.statPayload = s'.statPayload := by
  have hflags : s.statFlags = s'.statFlags := by rw [State.statFlags, State.statFlags, hk, hi, hf]
  by_cases hkeyed : s.ctx.keyed = true
  · obtain ⟨hnb, hnk, hnr⟩ := hsizes hkeyed
    rw [statPayload_of_keyed hkeyed, statPayload_of_keyed (hk ▸ hkeyed), hflags, hnb, hnk, hnr]
  · rw [statPayload_of_notKeyed hkeyed, statPayload_of_notKeyed (hk ▸ hkeyed), hflags]

/-! ## The answer (R260 to R262) -/

/-- STAT answers its payload, with the status of the fault flag (R261, R262). -/
theorem execStat_newResponses {s t : State} (h : exec .stat s = .next t) :
    newResponses s t = [response (if s.faulted then .faulted else .ok) 0x07 0 s.statPayload] := by
  cases (execStat_eq s).symm.trans h
  exact newResponses_of_append rfl

/-- Settles O39: the payload by field, in a response that leaves everything else. -/
theorem statReportsFlagsAndSizes : Obligations.StatReportsFlagsAndSizes := by
  intro s
  obtain ⟨b1, b2, b3, hpayload, hkeyed, hnotKeyed⟩ := statPayload_fields s
  refine ⟨_, s.statFlags, b1, b2, b3, execStat_eq s, rfl, rfl, rfl, by rw [hpayload]; rfl,
    (getLsbD_statFlags s 0).trans (by simp), (getLsbD_statFlags s 1).trans (by simp), (getLsbD_statFlags s 2).trans (by simp),
    fun k hk => ?_, hkeyed, hnotKeyed⟩
  have hlow : k ≠ 0 ∧ k ≠ 1 ∧ k ≠ 2 := by omega
  simp [getLsbD_statFlags, hlow]

/-- Settles O40: neither the status nor the payload depends on anything else. -/
theorem statHidesKeyMaterial : Obligations.StatHidesKeyMaterial := by
  intro s s' t t' hf hk hi hsizes h h'
  rw [execStat_newResponses h, execStat_newResponses h', hf, statPayload_congr hf hk hi hsizes]

end Sys2Proof.Machine
end

section
/-! PROOFS. Errors and the fault state (60_exceptions.md): what clears FAULTED, what a faulted core answers, and what an error leaves
unchanged. -/

namespace Sys2Proof.Machine

/-! ## The fault flag is sticky (R41, R281) -/

/-- Settles O42: a frame and waiting keep the flag, and the reset state has no flag set. -/
theorem onlyResetClearsFaulted : Obligations.OnlyResetClearsFaulted := by
  intro s t hstep hf ht
  rcases port_cases s with ⟨header, operands, rest, hframe, -⟩ | ⟨bytes, rest, hpartial, harrivals, hreset⟩ | ⟨-, -, -, hwait⟩
  · rw [step_of_frame hframe] at hstep
    obtain ⟨-, -, -, -, -, -, hstay⟩ := runFrame_one_response hstep
    exact absurd (hstay hf) (by simp [ht])
  · cases (step_of_reset hreset).symm.trans hstep
    exact ⟨⟨bytes, rest, hpartial, harrivals⟩, rfl, rfl⟩
  · cases (step_of_partial hwait).symm.trans hstep
    exact absurd hf (by simp [ht])

/-! ## A faulted core (R262, R280) -/

/-- A faulted core answers every command but STAT with FAULTED (R280). -/
theorem exec_of_faulted {i : Instr} {s : State} (hi : i ≠ .stat) (hf : s.faulted = true) :
    exec i s = .next (s.respond .faulted i.opc 0 []) := by
  cases i with
  | stat => exact absurd rfl hi
  | kinit | cinit | encb | decb | cbce | cbcd => exact unlessFaulted_of_faulted hf ..

/-- A faulted core answers STAT with its payload and status FAULTED (R262). -/
theorem execStat_of_faulted {s : State} (hf : s.faulted = true) :
    exec .stat s = .next (s.respond .faulted 0x07 0 s.statPayload) := by
  rw [exec, execStat_eq, if_pos hf]

/-- A faulted core answers every frame but a well-formed STAT with FAULTED and the frame's OPC (R280). -/
theorem runFrame_of_faulted {h : Header} {s : State} (hd : decodeHeader h ≠ .instr .stat) (hf : s.faulted = true) :
    runFrame h s = .next (s.respond .faulted h.opc 0 []) := by
  unfold runFrame
  split
  next i hdecode =>
    rw [exec_of_faulted (fun hi => hd (hi ▸ hdecode)) hf, opc_of_decodeHeader hdecode]
  next => exact unlessFaulted_of_faulted hf ..

/-- Settles O43: the command that sets the flag is a CBCD with a length fault; under the flag, STAT answers its payload and every
other frame is answered by `runFrame_of_faulted`. -/
theorem faultedCoreAnswersOnlyFaulted : Obligations.FaultedCoreAnswersOnlyFaulted := by
  refine ⟨fun s t hstep hf ht => ?_, fun s header operands rest hframe hf => ?_⟩
  · obtain ⟨_, operands, rest, dlen, hframe, hdecode, hkeyed, hiv, hlen, hblocks⟩ := faultedSetOnlyByCbcdLength s t hstep hf ht
    have hfault : exec (.cbcd dlen) (s.accept operands rest) = _ :=
      cbcDecryptMessage_lengthFault (p := Config.params) hf hkeyed hiv hlen hblocks
    cases ((step_of_command hframe hdecode).trans hfault).symm.trans hstep
    rfl
  · have haccept : (s.accept operands rest).faulted = true := hf
    by_cases hstat : decode header = .instr .stat
    · exact ⟨_, (step_of_command hframe hstat).trans (execStat_of_faulted haccept), rfl, hf, rfl, fun _ => rfl,
        fun hne => absurd hstat hne⟩
    · have hdecode := decode_of_length hframe.header_length ▸ hstat
      exact ⟨_, (step_of_frame hframe).trans (runFrame_of_faulted hdecode haccept), rfl, hf, rfl, fun h => absurd h hstat,
        fun _ => rfl⟩

/-! ## What an error does (R272, R273) -/

/-- `t` has one response more than `s`, and if that response is an error, the context is as it was and no result byte is output. -/
def ErrsWithoutEffect (s t : State) : Prop :=
  ∃ r, t.responses = s.responses ++ [r] ∧ (r.statusCode ≠ Status.code .ok → t.ctx = s.ctx ∧ r.out = [])

/-- A command that ends with no result byte and the context as it was (R272). -/
theorem errsWithoutEffect_of_no_result {s u : State} {st : Status} {opc detail : Byte}
    (hr : u.responses = s.responses := by rfl) (hctx : u.ctx = s.ctx := by rfl) :
    ErrsWithoutEffect s (u.respond st opc detail []) :=
  ⟨_, congrArg (· ++ _) hr, fun _ => ⟨hctx, rfl⟩⟩

/-- A command that ends normally. -/
theorem errsWithoutEffect_of_ok {s u : State} {opc detail : Byte} {out : List Byte}
    (hr : u.responses = s.responses := by rfl) : ErrsWithoutEffect s (u.respond .ok opc detail out) :=
  ⟨_, congrArg (· ++ _) hr, fun hne => absurd (response_statusCode ..) hne⟩

/-- CBCE, for any parameters, gives no ciphertext with an error (R240). -/
theorem cbcEncryptMessage_errsWithoutEffect {p : Params} {dlen : Nat} {s t : State} (h : cbcEncryptMessage p dlen s = .next t) :
    ErrsWithoutEffect s t := by
  rcases cbcEncryptMessage_cases h with ⟨st, -, rfl⟩ | ⟨-, -, -, -, padded, -, -, -, rfl⟩
  · exact errsWithoutEffect_of_no_result
  · exact errsWithoutEffect_of_ok

/-- CBCD, for any parameters, gives no decrypted byte with an error, even when it has decrypted the message (R244). -/
theorem cbcDecryptMessage_errsWithoutEffect {p : Params} {dlen : Nat} {s t : State} (h : cbcDecryptMessage p dlen s = .next t) :
    ErrsWithoutEffect s t := by
  rcases cbcDecryptMessage_cases h with ⟨st, -, rfl⟩ | ⟨-, -, -, -, ⟨-, rfl⟩ | ⟨-, s1, q, rfl, -, hend⟩⟩
  · exact errsWithoutEffect_of_no_result
  · exact errsWithoutEffect_of_no_result
  · rcases hend with ⟨e, -, rfl⟩ | ⟨m, -, -, rfl⟩ | ⟨m, -, -, rfl⟩
    · exact errsWithoutEffect_of_no_result
    · exact errsWithoutEffect_of_no_result
    · exact errsWithoutEffect_of_ok

/-- No command but STAT changes the context or outputs a byte when it errs (R272). -/
theorem exec_errsWithoutEffect {i : Instr} {s t : State} (h : exec i s = .next t) (hi : i ≠ .stat) : ErrsWithoutEffect s t := by
  cases exec_ends h with
  | error | lengthFault => exact errsWithoutEffect_of_no_result
  | keyed | keyedWithIv | block => exact errsWithoutEffect_of_ok
  | message _ _ _ _ _ hcbc =>
    obtain ⟨n, rfl⟩ | ⟨n, rfl⟩ := hcbc
    · exact cbcEncryptMessage_errsWithoutEffect h
    · exact cbcDecryptMessage_errsWithoutEffect h
  | status => exact absurd rfl hi

/-- Nor does any frame but a well-formed STAT (R272, R278). -/
theorem runFrame_errsWithoutEffect {h : Header} {s t : State} (hrun : runFrame h s = .next t)
    (hd : decodeHeader h ≠ .instr .stat) : ErrsWithoutEffect s t := by
  unfold runFrame at hrun
  split at hrun
  next i hdecode => exact exec_errsWithoutEffect hrun fun hi => hd (hi ▸ hdecode)
  next =>
    obtain ⟨st, -, heq⟩ := illegalCommand_cases s h.opc
    cases heq.symm.trans hrun
    exact errsWithoutEffect_of_no_result

/-- An error changes no context field, and outputs nothing unless it is STAT's answer under FAULTED (R262, R272). -/
theorem runFrame_error {h : Header} {s t : State} {r : Response} (hrun : runFrame h s = .next t)
    (hr : t.responses = s.responses ++ [r]) (hne : r.statusCode ≠ Status.code .ok) :
    t.ctx = s.ctx ∧ (r.out = [] ∨ (decodeHeader h = .instr .stat ∧ s.faulted = true)) := by
  by_cases hstat : decodeHeader h = .instr .stat
  · rw [runFrame, hstat] at hrun
    cases (execStat_eq s).symm.trans hrun
    cases List.append_cancel_left hr
    cases hf : s.faulted with
    | false => exact absurd (by simp [hf]) hne
    | true => exact ⟨rfl, .inr ⟨hstat, rfl⟩⟩
  · obtain ⟨r', hr', heffect⟩ := runFrame_errsWithoutEffect hrun hstat
    cases List.append_cancel_left (hr'.symm.trans hr)
    exact (heffect hne).imp_right .inl

/-- The frame that sets FAULTED is a CBCD with a length fault (R241, R245). -/
theorem runFrame_setsFaulted {h : Header} {s t : State} (hrun : runFrame h s = .next t) (hf : s.faulted = false)
    (ht : t.faulted = true) :
    ∃ dlen, decodeHeader h = .instr (.cbcd dlen) ∧ s.ctx.keyed = true ∧ s.ctx.ivValid = true ∧ dlen ≤ Config.maxMsgLen ∧
      dlen % s.ctx.blockBytes ≠ 0 := by
  unfold runFrame at hrun
  split at hrun
  next i hdecode =>
    obtain ⟨dlen, rfl, hchecks⟩ := exec_setsFaulted hrun hf ht
    exact ⟨dlen, hdecode, hchecks⟩
  next =>
    obtain ⟨st, -, heq⟩ := illegalCommand_cases s h.opc
    cases heq.symm.trans hrun
    exact absurd ht (by simp [hf])

/-- Settles O44: the context and the result bytes by `runFrame_error`; a flag that was clear and is set shows in the status. -/
theorem errorsLeaveContextUnchanged : Obligations.ErrorsLeaveContextUnchanged := by
  intro s t header operands rest r hframe hstep hr hne
  obtain ⟨t', -, hstep', harrivals, -⟩ := frameConsumedWholeAndAnsweredOnce.1 s header operands rest hframe
  cases hstep'.symm.trans hstep
  rw [decode_of_length hframe.header_length]
  rw [step_of_frame hframe] at hstep
  obtain ⟨hctx, hout⟩ := runFrame_error hstep hr hne
  refine ⟨hctx, harrivals, ?_, hout⟩
  obtain ⟨st, opc, detail, out, hr', hst, hstay⟩ := runFrame_one_response hstep
  cases List.append_cancel_left (hr'.symm.trans hr)
  cases hf : s.faulted with
  | true => exact .inl (hstay hf)
  | false =>
    cases ht : t.faulted with
    | false => exact .inl rfl
    | true =>
      obtain ⟨dlen, hdecode, hkeyed, hiv, hlen, hblocks⟩ := runFrame_setsFaulted hstep hf ht
      refine .inr ⟨rfl, ?_, hkeyed, hiv, dlen, hdecode, hlen, hblocks⟩
      rw [response_statusCode, hst.mpr ht]

end Sys2Proof.Machine
end

section
/-! PROOFS. Reset and hazards (70_reset_and_hazards.md): a reset between frames or inside one. -/

namespace Sys2Proof.Machine

/-! ## Reset at the port (R300, R301) -/

/-- A reset after a partial frame, the empty one included, is taken as the reset alone. -/
theorem step_of_partial_then_reset {s : State} {bytes : List Byte} {rest : List Arrival} (hpartial : PartialFrame bytes)
    (harrived : s.arrivals = arrivalsOf bytes ++ Arrival.reset :: rest) : step s = .next (s.applyReset rest) :=
  step_of_reset (harrived ▸ receive_reset bytes rest hpartial)

/-- Settles O2: the step applies the reset; its flags and IN are those of the reset state, the responses stay, and what is left to
arrive is what came after it. -/
theorem resetDiscardsPartialFrame : Obligations.ResetDiscardsPartialFrame := by
  intro s bytes rest hpartial harrived
  exact ⟨s.applyReset rest, step_of_partial_then_reset hpartial harrived, applyReset_faulted s rest, reset_keyed, reset_ivValid,
    rfl, applyReset_inp s rest, applyReset_arrivals s rest, applyReset_responses s rest⟩

end Sys2Proof.Machine
end
